-- ==== Sys2Proof/Word.lean ====
section
/-! DEFINITION. The word types of the core (00_scope.md R7): bytes, 32-bit words and the byte strings of fixed length.

A byte string `B` of `n` bytes is a bit vector of `8 * n` bits whose most significant byte is `B[0]`, "the first,
left-most and most significant byte" (R7). With this reading `A ‖ B` is `A ++ B`, `A xor B` is `A ^^^ B`, and a hex run
of the spec is the same run as a Lean literal (notes/assumptions/5.md). -/

namespace Sys2Proof

/-- A byte, 0 to 255 (R7). -/
abbrev Byte := BitVec 8

/-- A 32-bit word: the command word (R70), `ROC`, `SSRC`, `MSGLEN` (R20), an AES column (R150), a SHA-1 word (R170). -/
abbrev Word := BitVec 32

/-- A tag, `TAG_LEN` = 10 bytes (R5). -/
abbrev Bytes10 := BitVec 80

/-- A salt, `SALT_LEN` = 14 bytes (R5). -/
abbrev Bytes14 := BitVec 112

/-- A key or block, `KEY_LEN` = `BLOCK_LEN` = 16 bytes (R5). -/
abbrev Bytes16 := BitVec 128

/-- An authentication key or digest, `AUTHKEY_LEN` = `DIGEST_LEN` = 20 bytes (R5). -/
abbrev Bytes20 := BitVec 160

/-- A staging register, `STAGE_MAX` = 32 bytes (R5). -/
abbrev Bytes32 := BitVec 256

end Sys2Proof
end

