-- ==== Sys2Proof/Machine/Bytes.lean ====
section
/-! DEFINITION. Bytes of a byte string (00_scope.md R7): indexing, slices from the left, building from bytes. -/

namespace Sys2Proof.Machine

/-- `B[i]`, byte `i` of a byte string, `B[0]` the left-most (R7). Meant for `8 * (i + 1) ≤ w`. -/
def byteAt {w : Nat} (b : BitVec w) (i : Nat) : Byte := b.extractLsb' (w - 8 * (i + 1)) 8

/-- The first `n` bits of a byte string: `B[0..n/8)` (R7). -/
def leftmost {w : Nat} (n : Nat) (b : BitVec w) : BitVec n := b.extractLsb' (w - n) n

/-- The bytes of a byte string in index order (R7). -/
def bytesOf {w : Nat} (b : BitVec w) : List Byte := (List.range (w / 8)).map (byteAt b)

/-- The 16-byte string whose byte `i` is `f i` (R7). -/
def block16 (f : Nat → Byte) : Bytes16 :=
  f 0 ++ f 1 ++ f 2 ++ f 3 ++ f 4 ++ f 5 ++ f 6 ++ f 7 ++
    f 8 ++ f 9 ++ f 10 ++ f 11 ++ f 12 ++ f 13 ++ f 14 ++ f 15

/-- The word of four bytes, `b0` the most significant: an AES column (R150), a SHA-1 word (R170). -/
def wordOf (b0 b1 b2 b3 : Byte) : Word := b0 ++ b1 ++ b2 ++ b3

end Sys2Proof.Machine
end

