-- ==== Sys2Proof/Config.lean ====
section
/-! DEFINITION. What the spec leaves to the implementation: the size of the message buffer (00_scope.md R5). -/

namespace Sys2Proof

/-- "The model takes `MSG_MAX` as an argument" (R5): the argument. It is fixed for a machine; no step changes it. -/
structure Config where
  /-- `MSG_MAX`, the capacity of the message buffer in bytes. -/
  msgMax : Nat
deriving DecidableEq, Repr

namespace Config

/-- R5: `1 <= MSG_MAX <= 2^32 - 1`. -/
abbrev Legal (c : Config) : Prop := 1 ≤ c.msgMax ∧ c.msgMax ≤ 2 ^ 32 - 1

/-- The argument `State.reset` is given: the value the vectors of 95_test_vectors.md "were run at" (R5).
DESIGN CHOICE: the spec leaves `MSG_MAX` open (notes/assumptions/3.md). Unsafe for a statement about `State.reset`
alone; a statement over every state, or over `State.resetWith c`, holds for every value. -/
def vectors : Config := { msgMax := 2048 }

end Config

end Sys2Proof
end

