-- ==== Sys2Proof/Syntax.lean ====
section
/-! DEFINITION. The commands of the core and the transactions of its port, as syntax. -/

namespace Sys2Proof

/-- The two streams (00_scope.md R5, 30_encoding.md R71): `S = 0` media, `S = 1` control. -/
inductive Stream where
  | media
  | control
deriving DecidableEq, Repr

/-- The nine commands (30_encoding.md R73), one constructor per row of opcode_table.json. All 256 labels are legal
(R72). -/
inductive Instr where
  /-- `nop` (40_context.md R91). -/
  | nop
  /-- `load` (40_context.md R92). -/
  | load
  /-- `clear` (40_context.md R93). -/
  | clear
  /-- `kdf.key s, label` (41_kdf.md R102). -/
  | kdfKey (b : Stream) (label : Byte)
  /-- `kdf.salt s, label` (41_kdf.md R103). -/
  | kdfSalt (b : Stream) (label : Byte)
  /-- `kdf.auth s, label` (41_kdf.md R104). -/
  | kdfAuth (b : Stream) (label : Byte)
  /-- `ctr s` (42_counter.md R121). -/
  | ctr (b : Stream)
  /-- `tag s` (43_authenticator.md R131). -/
  | tag (b : Stream)
  /-- `verify s` (43_authenticator.md R133). -/
  | verify (b : Stream)
deriving DecidableEq, Repr

/-- The fields of format `C` (30_encoding.md R70), from bit 31 down to bit 0. -/
structure CommandFields where
  /-- Bits 31:24, reserved. -/
  z1 : BitVec 8
  /-- Bits 23:16, the label. -/
  label : BitVec 8
  /-- Bits 15:9, reserved. -/
  z0 : BitVec 7
  /-- Bit 8, the stream select. -/
  s : BitVec 1
  /-- Bits 7:0, the operation code. -/
  op : BitVec 8
deriving DecidableEq, Repr

/-- The 22 registers of the port (20_memory.md R63), in the order of the map. -/
inductive RegName where
  | cmd | err | flags
  | kin | klen | sin | slen | mk | ms
  | sk0 | ss0 | sa0 | sk1 | ss1 | sa1
  | seq | roc | ssrc | ctr
  | msglen | claim | tag
deriving DecidableEq, Repr

/-- A value on the port, with its own width in bits: a `RegWrite` may offer a width the register does not have
(20_memory.md R51, R52 case 5). -/
structure PortValue where
  width : Nat
  bits : BitVec width
deriving DecidableEq, Repr

/-- The four transactions of the port (20_memory.md R51). -/
inductive Transaction where
  /-- `RegWrite(id, v)`. -/
  | regWrite (id : BitVec 8) (v : PortValue)
  /-- `RegRead(id)`. -/
  | regRead (id : BitVec 8)
  /-- `MsgWrite(off, b)`. -/
  | msgWrite (off : Word) (b : Byte)
  /-- `MsgRead(off)`. -/
  | msgRead (off : Word)
deriving DecidableEq, Repr

/-- What can happen to the core from outside: a port transaction (R51), or a reset between two of them
(70_reset_and_hazards.md R210). -/
inductive HostEvent where
  | port (t : Transaction)
  | reset
deriving DecidableEq, Repr

/-- The port's answer to a transaction (20_memory.md R51): `ACK`, with the value a read returns, or `NAK`. -/
inductive Answer where
  | ack (data : Option PortValue)
  | nak
deriving DecidableEq, Repr

end Sys2Proof
end

