-- ==== Sys2Proof/Machine/State.lean ====
section
/-! DEFINITION. The state of the machine: the core's registers and memory exactly as 10_state.md R20 lists them, the
parameter `MSG_MAX`, and the host's side of the port. -/

namespace Sys2Proof.Machine

/-- A register that exists once per stream (10_state.md R20, R26): `SK[0]`, `SK[1]` and the like. -/
@[ext]
structure Bank (α : Type) where
  media : α
  control : α
deriving DecidableEq, Repr

/-- The message buffer `MSG` (10_state.md R30) as its listed bytes, in the canonical form `Memory.wf`: offsets strictly
rising, and no byte equal to what an unlisted offset reads as. -/
abbrev Memory := List Host.Cell

/-- "The complete architectural state of the core is the following list and nothing else" (10_state.md R20). -/
@[ext]
structure Arch where
  ofFields ::
  /-- `ERR`, the outcome of the last command (R22). -/
  err : BitVec 8
  /-- `MV`: master secrets are loaded (R25). -/
  mv : Bool
  /-- `MK`, the master key (R25). -/
  mk : Bytes16
  /-- `MS`, the master salt (R25). -/
  ms : Bytes14
  /-- `KIN`, the candidate master key (R24). -/
  kin : Bytes32
  /-- `KLEN`, its claimed length (R24). -/
  klen : BitVec 8
  /-- `SIN`, the candidate master salt (R24). -/
  sin : Bytes32
  /-- `SLEN`, its claimed length (R24). -/
  slen : BitVec 8
  /-- `SK[s]`, the session keys (R26). -/
  sk : Bank Bytes16
  /-- `SS[s]`, the session salts (R26). -/
  ss : Bank Bytes14
  /-- `SA[s]`, the session authentication keys (R26). -/
  sa : Bank Bytes20
  /-- `SKV[s]`: `SK[s]` holds a derived value (R26). -/
  skv : Bank Bool
  /-- `SSV[s]`: `SS[s]` holds a derived value (R26). -/
  ssv : Bank Bool
  /-- `SAV[s]`: `SA[s]` holds a derived value (R26). -/
  sav : Bank Bool
  /-- `SEQ`, the sequence number (R28). -/
  seq : BitVec 16
  /-- `ROC`, the rollover counter (R28). -/
  roc : Word
  /-- `SSRC`, the source identifier (R28). -/
  ssrc : Word
  /-- `CTR`, the counter block (R29). -/
  ctr : Bytes16
  /-- `CTRV`: `CTR` holds a result (R29). -/
  ctrv : Bool
  /-- `MSGLEN`, the length of the authenticated portion (R30). -/
  msglen : Word
  /-- `MSG`, the bytes of the authenticated portion (R30). -/
  msg : Memory
  /-- `CLAIM`, the claimed tag (R31). -/
  claim : Bytes10
  /-- `TAG`, the computed tag (R32). -/
  tag : Bytes10
  /-- `TAGV`: `TAG` holds a result (R32). -/
  tagv : Bool
  /-- `MATCH`, the boolean of the last `verify` (R33). -/
  matched : Bool
  /-- `MATCHV`: `MATCH` holds a result (R33). -/
  matchv : Bool
deriving DecidableEq, Repr

/-- The machine: the core, its parameter, and the host's side of the port. -/
@[ext]
structure State where
  /-- `MSG_MAX` (00_scope.md R5), an argument of the model; no step changes it (notes/assumptions/3.md). -/
  cfg : Config
  /-- The core (R20). -/
  arch : Arch
  /-- What the host and the environment do next, oldest first: the model's own field, for the core has no program
  counter and "the next command is whatever the host writes next" (R35; notes/assumptions/1.md). -/
  pending : List HostEvent
  /-- What the port has answered, newest first: the model's own field, the host's record; the core keeps none
  (20_memory.md R52; notes/assumptions/2.md). -/
  answers : List Answer
deriving DecidableEq, Repr

/-- A reason to stop. There is none: "no command hangs, none is left half done, none has undefined results"
(00_scope.md R9), an error is a code in `ERR` (60_exceptions.md R193), and a refused transaction is answered `NAK`
(20_memory.md R52). Nobody raises a fault. -/
inductive Fault where
deriving DecidableEq, Repr

/-- A reason to give no meaning. -/
inductive Refusal where
  /-- Raised by `exec` for a command that has no meaning in the model yet; no command is left so. Safe: a claim about
  such a command cannot be proved. -/
  | notModelled (mnemonic : String)
deriving DecidableEq, Repr

/-- The core after reset: "every component of rule R20 is zero" (10_state.md R38, 70_reset_and_hazards.md R211). -/
def Arch.reset : Arch where
  err := 0x00
  mv := false
  mk := 0
  ms := 0
  kin := 0
  klen := 0
  sin := 0
  slen := 0
  sk := ⟨0, 0⟩
  ss := ⟨0, 0⟩
  sa := ⟨0, 0⟩
  skv := ⟨false, false⟩
  ssv := ⟨false, false⟩
  sav := ⟨false, false⟩
  seq := 0
  roc := 0
  ssrc := 0
  ctr := 0
  ctrv := false
  msglen := 0
  msg := []
  claim := 0
  tag := 0
  tagv := false
  matched := false
  matchv := false

/-- The machine after reset, for a given `MSG_MAX`: nothing pending, nothing answered (DESIGN CHOICE,
notes/assumptions/1.md and 2.md). -/
def State.resetWith (c : Config) : State where
  cfg := c
  arch := .reset
  pending := []
  answers := []

/-- The machine after reset, at the `MSG_MAX` of the spec's vectors (DESIGN CHOICE, notes/assumptions/3.md). -/
def State.reset : State := .resetWith .vectors

end Sys2Proof.Machine
end

