-- ==== Sys2Proof/Machine/Ops.lean ====
section
/-! DEFINITION. The named operations on memory and registers, and how a command ends: completing (60_exceptions.md
R194) and entering an error (R193). -/

namespace Sys2Proof.Machine

/-! ### Banked registers -/

namespace Bank

variable {α : Type}

/-- `REG[s]` (00_scope.md R8). -/
def get (r : Bank α) : Stream → α
  | .media => r.media
  | .control => r.control

/-- `REG[s] <- v` (00_scope.md R8). -/
def set (r : Bank α) : Stream → α → Bank α
  | .media, v => { r with media := v }
  | .control, v => { r with control := v }

/-- The same value in both banks. -/
def both (v : α) : Bank α := ⟨v, v⟩

end Bank

/-! ### The message buffer -/

/-- What an unlisted offset of `MSG` reads as: after reset "every byte of `MSG` zero" (10_state.md R30, R38). -/
def unlistedByte : Byte := 0x00

namespace Memory

/-- The canonical form: offsets strictly rising, no listed byte equal to what an unlisted offset reads as. -/
abbrev wf (m : Memory) : Prop := m.Pairwise (fun x y => x.1 < y.1) ∧ ∀ c ∈ m, c.2 ≠ unlistedByte

/-- `MSG[off]` (20_memory.md R51, R56). -/
def read : Memory → Nat → Byte
  | [], _ => unlistedByte
  | c :: m, off => if c.1 = off then c.2 else read m off

/-- The cell of a byte, where it is listed at all. -/
def cell (off : Nat) (b : Byte) : Memory := if b = unlistedByte then [] else [(off, b)]

/-- `MSG[off] <- b` (20_memory.md R51), in canonical form. -/
def write : Memory → Nat → Byte → Memory
  | [], off, b => cell off b
  | c :: m, off, b =>
    if off < c.1 then cell off b ++ c :: m
    else if off = c.1 then cell off b ++ m
    else c :: write m off b

/-- `MemRead(addr, n)`: the bytes `MSG[addr + k]`, `k = 0 .. n-1`, in that order (20_memory.md R56). -/
def readBytes (m : Memory) (addr n : Nat) : List Byte := (List.range n).map fun k => m.read (addr + k)

end Memory

/-! ### Register writes -/

namespace Arch

/-- `ERR <- e` (10_state.md R22). -/
def setErr (e : BitVec 8) (a : Arch) : Arch := { a with err := e }

/-- `MK <- k`, `MS <- m`, `MV <- 1` (40_context.md R92). -/
def setMaster (k : Bytes16) (m : Bytes14) (a : Arch) : Arch := { a with mk := k, ms := m, mv := true }

/-- `SK[s] <- v`, `SKV[s] <- valid` (10_state.md R26). -/
def setSk (b : Stream) (v : Bytes16) (valid : Bool) (a : Arch) : Arch :=
  { a with sk := a.sk.set b v, skv := a.skv.set b valid }

/-- `SS[s] <- v`, `SSV[s] <- valid` (10_state.md R26). -/
def setSs (b : Stream) (v : Bytes14) (valid : Bool) (a : Arch) : Arch :=
  { a with ss := a.ss.set b v, ssv := a.ssv.set b valid }

/-- `SA[s] <- v`, `SAV[s] <- valid` (10_state.md R26). -/
def setSa (b : Stream) (v : Bytes20) (valid : Bool) (a : Arch) : Arch :=
  { a with sa := a.sa.set b v, sav := a.sav.set b valid }

/-- `CTR <- v`, `CTRV <- valid` (10_state.md R29). -/
def setCtr (v : Bytes16) (valid : Bool) (a : Arch) : Arch := { a with ctr := v, ctrv := valid }

/-- `TAG <- v`, `TAGV <- valid` (10_state.md R32). -/
def setTag (v : Bytes10) (valid : Bool) (a : Arch) : Arch := { a with tag := v, tagv := valid }

/-- `MATCH <- v`, `MATCHV <- valid` (10_state.md R33). -/
def setMatch (v valid : Bool) (a : Arch) : Arch := { a with matched := v, matchv := valid }

/-- The three slots of a stream zeroed and their flags cleared (10_state.md R26). -/
def dropSlots (b : Stream) (a : Arch) : Arch :=
  ((a.setSk b 0 false).setSs b 0 false).setSa b 0 false

/-- `CTR`, `TAG` and `MATCH` zeroed and their flags cleared (10_state.md R29, R32, R33). -/
def dropResults (a : Arch) : Arch :=
  ((a.setCtr 0 false).setTag 0 false).setMatch false false

end Arch

namespace State

/-- A change of the core alone. -/
def mapArch (f : Arch → Arch) (s : State) : State := { s with arch := f s.arch }

/-- The port answers (20_memory.md R51); the host sees it. -/
def answered (x : Answer) (s : State) : State := { s with answers := x :: s.answers }

/-- The head of the list of pending events is taken; `rest` is what remains. -/
def withPending (rest : List HostEvent) (s : State) : State := { s with pending := rest }

end State

/-! ### How a command ends -/

/-- The outcomes of a command that are errors (60_exceptions.md R190). `CipherInitializationFailure` is one of DOC0's
kinds that "nothing" raises (R190, R191). -/
inductive ErrorKind where
  | invalidKeyLength
  | invalidSaltLength
  | cipherInitializationFailure
  | authenticationComputationFailure
  | notLoaded
  | illegalCommand
deriving DecidableEq, Repr

/-- The codes of `ERR` (60_exceptions.md R190). -/
def ErrorKind.code : ErrorKind → BitVec 8
  | .invalidKeyLength => 0x01
  | .invalidSaltLength => 0x02
  | .cipherInitializationFailure => 0x03
  | .authenticationComputationFailure => 0x04
  | .notLoaded => 0x05
  | .illegalCommand => 0x06

/-- `OK` (60_exceptions.md R190). -/
def okCode : BitVec 8 := 0x00

/-- What a command writes on an error besides `ERR` (the table of 60_exceptions.md R193). -/
inductive ErrorWrites where
  /-- An illegal word, `load`, `kdf.key`, `kdf.salt`, `kdf.auth`: nothing. -/
  | nothing
  /-- `ctr s`: `CTR <- 0^16`, `CTRV <- 0`. -/
  | ctr
  /-- `tag s`: `TAG <- 0^10`, `TAGV <- 0`. -/
  | tag
  /-- `verify s`: `MATCH <- 0`, `MATCHV <- 0`. -/
  | verdict
deriving DecidableEq, Repr

/-- The extra writes of R193. -/
def ErrorWrites.apply : ErrorWrites → Arch → Arch
  | .nothing, a => a
  | .ctr, a => a.setCtr 0 false
  | .tag, a => a.setTag 0 false
  | .verdict, a => a.setMatch false false

/-- A command that ends `OK`, having changed the core by `f`: it "writes ERR exactly once, as its last act"
(40_context.md R90). -/
def complete (f : Arch → Arch) (s : State) : Host.Outcome State Fault Refusal :=
  .next (s.mapArch fun a => (f a).setErr okCode)

/-- Error entry (60_exceptions.md R193): the extra writes of the command, `ERR <- code(E)`, "and nothing else". There
is nothing to return from: "`ERR` keeps its code until the next `RegWrite(CMD, w)`" (R194). -/
def raise (x : ErrorWrites) (e : ErrorKind) (s : State) : Host.Outcome State Fault Refusal :=
  .next (s.mapArch fun a => (x.apply a).setErr e.code)

end Sys2Proof.Machine
end

