-- ==== Sys2Proof/Machine/Flags.lean ====
section
/-! DEFINITION. The flags: the view `FLAGS` (10_state.md R23), and the comparison that decides `MATCH`
(43_authenticator.md R132). -/

namespace Sys2Proof.Machine

/-- The flag bits of R23, bit 0 first. -/
def Arch.flagBits (a : Arch) : List Bool :=
  [a.mv, a.skv.media, a.ssv.media, a.sav.media, a.skv.control, a.ssv.control, a.sav.control,
    a.ctrv, a.tagv, a.matchv, a.matched]

/-- A bit list as a number, its first bit the least significant. -/
def bitsToNat : List Bool → Nat
  | [] => 0
  | b :: bs => b.toNat + 2 * bitsToNat bs

/-- `FLAGS`, "a view assembled from the flag bits at the moment of the read"; bits 15:11 read as 0 (R23). -/
def Arch.flags (a : Arch) : BitVec 16 := BitVec.ofNat 16 (bitsToNat a.flagBits)

/-- `TagsEqual(a, b)`: all ten bytes are always visited (R132). -/
def tagsEqual (x y : Bytes10) : Bool :=
  (List.range 10).foldl (fun d i => d ||| (byteAt x i ^^^ byteAt y i)) (0 : Byte) == 0

end Sys2Proof.Machine
end

