-- ==== Sys2Proof/Machine/Operands.lean ====
section
/-! DEFINITION. The operands of the commands: what each reads from the core, and the byte layouts of 30_encoding.md
R78 and R79. -/

namespace Sys2Proof.Machine

/-- `KIN[0..16)`, the candidate master key (10_state.md R24, 40_context.md R92). -/
def Arch.candidateKey (a : Arch) : Bytes16 := leftmost 128 a.kin

/-- `SIN[0..14)`, the candidate master salt (10_state.md R24, 40_context.md R92). -/
def Arch.candidateSalt (a : Arch) : Bytes14 := leftmost 112 a.sin

/-- `MSG[0..MSGLEN)`, the message of `tag` and `verify`: `MemRead(0, MSGLEN)` (10_state.md R30, 43_authenticator.md
R131). -/
def Arch.message (a : Arch) : List Byte := a.msg.readBytes 0 a.msglen.toNat

/-- `MSGLEN > MSG_MAX` (43_authenticator.md R131, R133). -/
def State.messageTooLong (s : State) : Bool := decide (s.cfg.msgMax < s.arch.msglen.toNat)

/-- The 7-byte block `{label, 0,0,0,0,0,0}` XORed into bytes 7 to 13 of the salt copy (41_kdf.md R100). -/
def labelBlock (label : Byte) : Bytes14 := (0 : BitVec 56) ++ label ++ (0 : BitVec 48)

/-- `KdfInput(ms, label, idx)` (41_kdf.md R100, 30_encoding.md R78): byte 7 XORed with the label, then `be16(idx)`. -/
def kdfInput (ms : Bytes14) (label : Byte) (idx : BitVec 16) : Bytes16 := (ms ^^^ labelBlock label) ++ idx

/-- The counter block before the salt: `0^4 ‖ be32(ssrc) ‖ be32(roc) ‖ be16(seq) ‖ 0^2` (42_counter.md R120). -/
def plainCounter (seq : BitVec 16) (roc ssrc : Word) : Bytes16 :=
  (0 : BitVec 32) ++ ssrc ++ roc ++ seq ++ (0 : BitVec 16)

/-- `BuildCounter(seq, roc, ssrc, ss)`: "only the first 14 bytes receive the XOR" (42_counter.md R120, 30_encoding.md
R79). -/
def buildCounter (seq : BitVec 16) (roc ssrc : Word) (ss : Bytes14) : Bytes16 :=
  plainCounter seq roc ssrc ^^^ (ss ++ (0 : BitVec 16))

end Sys2Proof.Machine
end

