-- ==== Sys2Proof/Machine/Sha1.lean ====
section
/-! DEFINITION. The hash SHA-1 and the HMAC construction (45_sha1_hmac.md). Words are `BitVec 32`, `+` is modulo 2^32
(R170). -/

namespace Sys2Proof.Machine.Sha1

open Sys2Proof.Machine

/-! ### Padding (R171) -/

/-- `z = (55 - L) mod 64`, taken in `0..63` (R171). -/
def padZeros (len : Nat) : Nat := (55 + 64 - len % 64) % 64

/-- `pad(m) = m ‖ 0x80 ‖ 0^z ‖ be64(8 * L)` (R171). -/
def pad (m : List Byte) : List Byte :=
  m ++ [0x80] ++ List.replicate (padZeros m.length) 0 ++ bytesOf (BitVec.ofNat 64 (8 * m.length))

/-- The first `n` blocks of 64 bytes (R171). -/
def blocks : Nat → List Byte → List (List Byte)
  | 0, _ => []
  | n + 1, bs => bs.take 64 :: blocks n (bs.drop 64)

/-! ### Message schedule (R173) -/

/-- The words of a byte string, four bytes each, big-endian (R170, R173). -/
def words : List Byte → List Word
  | b0 :: b1 :: b2 :: b3 :: rest => wordOf b0 b1 b2 b3 :: words rest
  | _ => []

/-- `W[t]` from the words before it, newest first: `W[t-3]`, `W[t-8]`, `W[t-14]`, `W[t-16]` (R173). -/
def nextScheduleWord (ws : List Word) : Word :=
  (ws.getD 2 0 ^^^ ws.getD 7 0 ^^^ ws.getD 13 0 ^^^ ws.getD 15 0).rotateLeft 1

/-- `n` more words of the schedule, newest first (R173). -/
def extendSchedule : Nat → List Word → List Word
  | 0, ws => ws
  | n + 1, ws => extendSchedule n (nextScheduleWord ws :: ws)

/-- `W[0] .. W[79]` of one block (R173). -/
def schedule (block : List Byte) : List Word := (extendSchedule 64 (words block).reverse).reverse

/-! ### Compression (R172, R174) -/

/-- The chaining value, and the five variables of the rounds. -/
structure Chain where
  a : Word
  b : Word
  c : Word
  d : Word
  e : Word
deriving DecidableEq, Repr

/-- The initial hash value (R172). -/
def initial : Chain :=
  { a := 0x67452301, b := 0xEFCDAB89, c := 0x98BADCFE, d := 0x10325476, e := 0xC3D2E1F0 }

/-- `f(t; b, c, d)` (R172). -/
def roundFn (t : Nat) (b c d : Word) : Word :=
  if t < 20 then b &&& c ||| ~~~b &&& d
  else if t < 40 then b ^^^ c ^^^ d
  else if t < 60 then b &&& c ||| b &&& d ||| c &&& d
  else b ^^^ c ^^^ d

/-- `K(t)` (R172). -/
def roundConst (t : Nat) : Word :=
  if t < 20 then 0x5A827999
  else if t < 40 then 0x6ED9EBA1
  else if t < 60 then 0x8F1BBCDC
  else 0xCA62C1D6

/-- One round (R174). -/
def round (t : Nat) (w : Word) (h : Chain) : Chain where
  a := h.a.rotateLeft 5 + roundFn t h.b h.c h.d + h.e + roundConst t + w
  b := h.a
  c := h.b.rotateLeft 30
  d := h.c
  e := h.d

/-- The rounds of the words of a schedule, the first of which is round `t` (R174). -/
def rounds : Nat → List Word → Chain → Chain
  | _, [], h => h
  | t, w :: ws, h => rounds (t + 1) ws (round t w h)

/-- Compression of one block into the chaining value (R174). -/
def compress (h : Chain) (block : List Byte) : Chain :=
  let r := rounds 0 (schedule block) h
  { a := h.a + r.a, b := h.b + r.b, c := h.c + r.c, d := h.d + r.d, e := h.e + r.e }

/-- The 20 bytes of a chaining value (R175). -/
def Chain.digest (h : Chain) : Bytes20 := h.a ++ h.b ++ h.c ++ h.d ++ h.e

/-- `SHA1(m)` (R175). -/
def sha1 (m : List Byte) : Bytes20 :=
  let p := pad m
  ((blocks (p.length / 64) p).foldl compress initial).digest

/-! ### HMAC (R176) -/

/-- The 64-byte key block: `k ‖ 0^(64 - len(k))`, with a key longer than 64 bytes first replaced by its hash (R176;
the core's key has 20 bytes and never takes that branch). -/
def keyBlock (k : List Byte) : List Byte :=
  let k := if k.length ≤ 64 then k else bytesOf (sha1 k)
  k ++ List.replicate (64 - k.length) 0

/-- `HMAC_SHA1(k, m)` (R176). -/
def hmac (k m : List Byte) : Bytes20 :=
  let k0 := keyBlock k
  let inner := sha1 (k0.map (· ^^^ 0x36) ++ m)
  sha1 (k0.map (· ^^^ 0x5C) ++ bytesOf inner)

end Sys2Proof.Machine.Sha1
end

