-- ==== Sys2Proof/Machine/Authenticator.lean ====
section
/-! DEFINITION. The authenticator (43_authenticator.md): `tag`, `verify`. -/

namespace Sys2Proof.Machine

/-- `ComputeTag(k, m) = HMAC_SHA1(k, m)[0..10)` (R130). -/
def computeTag (k : Bytes20) (m : List Byte) : Bytes10 := leftmost 80 (Sha1.hmac (bytesOf k) m)

/-- The tag of `MSG[0..MSGLEN)` under `SA[s]` (R131, R133). -/
def Arch.expectedTag (a : Arch) (b : Stream) : Bytes10 := computeTag (a.sa.get b) a.message

/-- `tag s` (R131). -/
def execTag (b : Stream) (s : State) : Host.Outcome State Fault Refusal :=
  if !s.arch.sav.get b then raise .tag .notLoaded s
  else if s.messageTooLong then raise .tag .authenticationComputationFailure s
  else complete (fun a => a.setTag (a.expectedTag b) true) s

/-- `verify s`: the same tests, then the comparison with `CLAIM`; `TAG` is not touched (R133). -/
def execVerify (b : Stream) (s : State) : Host.Outcome State Fault Refusal :=
  if !s.arch.sav.get b then raise .verdict .notLoaded s
  else if s.messageTooLong then raise .verdict .authenticationComputationFailure s
  else complete (fun a => a.setMatch (tagsEqual (a.expectedTag b) a.claim) true) s

end Sys2Proof.Machine
end

