-- ==== Sys2Proof/Machine/Context.lean ====
section
/-! DEFINITION. The context commands `nop`, `load`, `clear` (40_context.md), and what an illegal word does (R74, R90). -/

namespace Sys2Proof.Machine

/-- `nop`: `ERR <- 0x00` (R91). -/
def execNop (s : State) : Host.Outcome State Fault Refusal := complete id s

/-- The writes of a successful `load` (R92): the new Context; every slot and every result zeroed and invalidated. -/
def Arch.install (a : Arch) : Arch :=
  (((a.setMaster a.candidateKey a.candidateSalt).dropSlots .media).dropSlots .control).dropResults

/-- `load`: the two length tests, in this order, then the new Context (R92, 60_exceptions.md R192). -/
def execLoad (s : State) : Host.Outcome State Fault Refusal :=
  if s.arch.klen ≠ 16 then raise .nothing .invalidKeyLength s
  else if s.arch.slen ≠ 14 then raise .nothing .invalidSaltLength s
  else complete Arch.install s

/-- `clear`: every component to its reset value (R93). -/
def execClear (s : State) : Host.Outcome State Fault Refusal := complete (fun _ => Arch.reset) s

/-- A word that decodes to nothing: `ERR <- IllegalCommand`, "nothing else changes" (R90, 30_encoding.md R74). -/
def execIllegal (s : State) : Host.Outcome State Fault Refusal := raise .nothing .illegalCommand s

end Sys2Proof.Machine
end

