-- ==== Sys2Proof/Machine/Counter.lean ====
section
/-! DEFINITION. The counter / IV builder (42_counter.md): `ctr`. -/

namespace Sys2Proof.Machine

/-- `ctr s`: the counter block of `SEQ`, `ROC`, `SSRC` with the salt `SS[s]`; without a salt, `NotLoaded` and no stale
block (R121). -/
def execCtr (b : Stream) (s : State) : Host.Outcome State Fault Refusal :=
  if s.arch.ssv.get b then
    complete (fun a => a.setCtr (buildCounter a.seq a.roc a.ssrc (a.ss.get b)) true) s
  else raise .ctr .notLoaded s

end Sys2Proof.Machine
end

