-- ==== Sys2Proof/Machine/Aes.lean ====
section
/-! DEFINITION. The block cipher AES-128, encryption only (44_aes128.md). The cipher state is the 16-byte string of
R150: `st[r][c]` is byte `r + 4 * c`, so a column is the word of bytes `4 * c` to `4 * c + 3`. -/

namespace Sys2Proof.Machine.Aes

open Sys2Proof.Machine

/-! ### Field arithmetic (R151) -/

/-- `xtime(a)`, multiplication by `x` modulo `0x11B` (R151). -/
def xtime (a : Byte) : Byte := a <<< 1 ^^^ (if a.getLsbD 7 then 0x1B else 0x00)

/-- `xtime^n(a)` (R151). -/
def xtimes : Nat → Byte → Byte
  | 0, a => a
  | n + 1, a => xtime (xtimes n a)

/-- `mul(a, b)`: the sum of `xtime^i(a)` over the bits `i` set in `b` (R151). -/
def mul (a b : Byte) : Byte :=
  (List.range 8).foldl (fun acc i => if b.getLsbD i then acc ^^^ xtimes i a else acc) 0

/-! ### The S-box (R152) -/

/-- The table of R152, one 16-byte string a row: row `h` holds `SBOX[16 * h]` to `SBOX[16 * h + 15]`. -/
def sboxRows : List Bytes16 :=
  [0x637c777bf26b6fc53001672bfed7ab76, 0xca82c97dfa5947f0add4a2af9ca472c0,
   0xb7fd9326363ff7cc34a5e5f171d83115, 0x04c723c31896059a071280e2eb27b275] ++
  [0x09832c1a1b6e5aa0523bd6b329e32f84, 0x53d100ed20fcb15b6acbbe394a4c58cf,
   0xd0efaafb434d338545f9027f503c9fa8, 0x51a3408f929d38f5bcb6da2110fff3d2] ++
  [0xcd0c13ec5f974417c4a77e3d645d1973, 0x60814fdc222a908846eeb814de5e0bdb,
   0xe0323a0a4906245cc2d3ac629195e479, 0xe7c8376d8dd54ea96c56f4ea657aae08] ++
  [0xba78252e1ca6b4c6e8dd741f4bbd8b8a, 0x703eb5664803f60e613557b986c11d9e,
   0xe1f8981169d98e949b1e87e9ce5528df, 0x8ca1890dbfe6426841992d0fb054bb16]

/-- `SBOX[a]`: "row is the high hex digit of `a`, column the low hex digit" (R152). -/
def sbox (a : Byte) : Byte := byteAt (sboxRows.getD (a.toNat / 16) 0) (a.toNat % 16)

/-- The S-box of an inverse `b = inv(a)`: the rotations and the constant of R152. -/
def sboxAffine (b : Byte) : Byte :=
  b ^^^ b.rotateLeft 1 ^^^ b.rotateLeft 2 ^^^ b.rotateLeft 3 ^^^ b.rotateLeft 4 ^^^ 0x63

/-! ### Round transformations -/

/-- `SubBytes` (R153). -/
def subBytes (st : Bytes16) : Bytes16 := block16 fun i => sbox (byteAt st i)

/-- `ShiftRows` on the string form: `out[r + 4*c] = in[r + 4*((c + r) mod 4)]` (R154). -/
def shiftRows (st : Bytes16) : Bytes16 :=
  block16 fun i => byteAt st (i % 4 + 4 * ((i / 4 + i % 4) % 4))

/-- One column of `MixColumns` (R155). -/
def mixColumn (a0 a1 a2 a3 : Byte) : Word :=
  wordOf
    (mul a0 0x02 ^^^ mul a1 0x03 ^^^ a2 ^^^ a3)
    (a0 ^^^ mul a1 0x02 ^^^ mul a2 0x03 ^^^ a3)
    (a0 ^^^ a1 ^^^ mul a2 0x02 ^^^ mul a3 0x03)
    (mul a0 0x03 ^^^ a1 ^^^ a2 ^^^ mul a3 0x02)

/-- Column `c` of `MixColumns` of a state (R155). -/
def mixedColumn (st : Bytes16) (c : Nat) : Word :=
  mixColumn (byteAt st (4 * c)) (byteAt st (4 * c + 1)) (byteAt st (4 * c + 2)) (byteAt st (4 * c + 3))

/-- `MixColumns` (R155). -/
def mixColumns (st : Bytes16) : Bytes16 :=
  mixedColumn st 0 ++ mixedColumn st 1 ++ mixedColumn st 2 ++ mixedColumn st 3

/-- `AddRoundKey` (R156): on the string form, bytewise `xor`. -/
def addRoundKey (st rk : Bytes16) : Bytes16 := st ^^^ rk

/-! ### Key schedule (R157) -/

/-- `RCON[j]` for `j = 1 .. 10` (R157). -/
def rcon (j : Nat) : Byte :=
  ([0x01, 0x02, 0x04, 0x08, 0x10] ++ [0x20, 0x40, 0x80, 0x1b, 0x36]).getD (j - 1) 0

/-- `RotWord` (R157). -/
def rotWord (t : Word) : Word := wordOf (byteAt t 1) (byteAt t 2) (byteAt t 3) (byteAt t 0)

/-- `SubWord` (R157). -/
def subWord (t : Word) : Word :=
  wordOf (sbox (byteAt t 0)) (sbox (byteAt t 1)) (sbox (byteAt t 2)) (sbox (byteAt t 3))

/-- `w[i]` from the words before it, newest first (R157). -/
def nextKeyWord (i : Nat) (ws : List Word) : Word :=
  let t := ws.getD 0 0
  let t := if i % 4 = 0 then subWord (rotWord t) ^^^ wordOf (rcon (i / 4)) 0 0 0 else t
  ws.getD 3 0 ^^^ t

/-- `n` more words of the schedule, from word `i` on, newest first (R157). -/
def extendKey : Nat → Nat → List Word → List Word
  | 0, _, ws => ws
  | n + 1, i, ws => extendKey n (i + 1) (nextKeyWord i ws :: ws)

/-- Word `i` of a 16-byte key, `[k[4i], k[4i+1], k[4i+2], k[4i+3]]` (R157). -/
def keyWord (k : Bytes16) (i : Nat) : Word :=
  wordOf (byteAt k (4 * i)) (byteAt k (4 * i + 1)) (byteAt k (4 * i + 2)) (byteAt k (4 * i + 3))

/-- `KeyExpansion(k)`: the 44 words in order (R157). -/
def keyExpansion (k : Bytes16) : List Word :=
  (extendKey 40 4 [keyWord k 3, keyWord k 2, keyWord k 1, keyWord k 0]).reverse

/-- Round key `j` (R157). -/
def roundKey (w : List Word) (j : Nat) : Bytes16 :=
  w.getD (4 * j) 0 ++ w.getD (4 * j + 1) 0 ++ w.getD (4 * j + 2) 0 ++ w.getD (4 * j + 3) 0

/-! ### The cipher (R159) -/

/-- One of the rounds 1 to 9 (R159). -/
def middleRound (st rk : Bytes16) : Bytes16 := addRoundKey (mixColumns (shiftRows (subBytes st))) rk

/-- The last round, which "has no MixColumns" (R159). -/
def lastRound (st rk : Bytes16) : Bytes16 := addRoundKey (shiftRows (subBytes st)) rk

/-- The state after the rounds 1 to `n` (R159). -/
def middleRounds (w : List Word) : Nat → Bytes16 → Bytes16
  | 0, st => st
  | n + 1, st => middleRound (middleRounds w n st) (roundKey w (n + 1))

/-- `AES128_Enc(k, b)` (R159). -/
def encrypt (k b : Bytes16) : Bytes16 :=
  let w := keyExpansion k
  lastRound (middleRounds w 9 (addRoundKey b (roundKey w 0))) (roundKey w 10)

end Sys2Proof.Machine.Aes
end

