-- ==== Sys2Proof/Machine/Kdf.lean ====
section
/-! DEFINITION. Key derivation (41_kdf.md): `kdf.key`, `kdf.salt`, `kdf.auth`. -/

namespace Sys2Proof.Machine

/-- `KdfBlock(mk, ms, label, idx) = AES128_Enc(mk, KdfInput(ms, label, idx))` (R101). -/
def kdfBlock (mk : Bytes16) (ms : Bytes14) (label : Byte) (idx : BitVec 16) : Bytes16 :=
  Aes.encrypt mk (kdfInput ms label idx)

/-- The session key of a label: block 0, all 16 bytes (R102). -/
def sessionKey (mk : Bytes16) (ms : Bytes14) (label : Byte) : Bytes16 := kdfBlock mk ms label 0x0000

/-- The session salt of a label: the first 14 bytes of block 0 (R103). -/
def sessionSalt (mk : Bytes16) (ms : Bytes14) (label : Byte) : Bytes14 := leftmost 112 (kdfBlock mk ms label 0x0000)

/-- The session authentication key of a label: block 0, then the first 4 bytes of block 1 (R104). -/
def sessionAuthKey (mk : Bytes16) (ms : Bytes14) (label : Byte) : Bytes20 :=
  kdfBlock mk ms label 0x0000 ++ leftmost 32 (kdfBlock mk ms label 0x0001)

/-- `kdf.key s, l` (R102). -/
def execKdfKey (b : Stream) (label : Byte) (s : State) : Host.Outcome State Fault Refusal :=
  if s.arch.mv then complete (fun a => a.setSk b (sessionKey a.mk a.ms label) true) s
  else raise .nothing .notLoaded s

/-- `kdf.salt s, l` (R103). -/
def execKdfSalt (b : Stream) (label : Byte) (s : State) : Host.Outcome State Fault Refusal :=
  if s.arch.mv then complete (fun a => a.setSs b (sessionSalt a.mk a.ms label) true) s
  else raise .nothing .notLoaded s

/-- `kdf.auth s, l` (R104). -/
def execKdfAuth (b : Stream) (label : Byte) (s : State) : Host.Outcome State Fault Refusal :=
  if s.arch.mv then complete (fun a => a.setSa b (sessionAuthKey a.mk a.ms label) true) s
  else raise .nothing .notLoaded s

end Sys2Proof.Machine
end

