-- ==== Sys2Proof/Machine/Dispatch.lean ====
section
/-! DEFINITION. The nine commands and their meanings, one arm each (30_encoding.md R73). -/

namespace Sys2Proof.Machine

def exec (i : Instr) (s : State) : Host.Outcome State Fault Refusal :=
  match i with
  | .nop => Sys2Proof.Machine.execNop s
  | .load => Sys2Proof.Machine.execLoad s
  | .clear => Sys2Proof.Machine.execClear s
  | .kdfKey b l => Sys2Proof.Machine.execKdfKey b l s
  | .kdfSalt b l => Sys2Proof.Machine.execKdfSalt b l s
  | .kdfAuth b l => Sys2Proof.Machine.execKdfAuth b l s
  | .ctr b => Sys2Proof.Machine.execCtr b s
  | .tag b => Sys2Proof.Machine.execTag b s
  | .verify b => Sys2Proof.Machine.execVerify b s

end Sys2Proof.Machine
end

