-- ==== Sys2Proof/WellFormed.lean ====
section
/-! DEFINITION. When a command word is legal (30_encoding.md R70, R74), as checks on the fields of format `C`. -/

namespace Sys2Proof

/-- The nine operation codes (R73). -/
def legalOps : List (BitVec 8) := [0x00, 0x01, 0x02, 0x10, 0x11, 0x12, 0x20, 0x30, 0x31]

/-- The operation codes whose commands use `LABEL` (R73): in every other command it "must be `0x00`" (R70). -/
def labelOps : List (BitVec 8) := [0x10, 0x11, 0x12]

/-- The operation codes whose commands use `S` (R73): in `nop`, `load`, `clear` it "must be 0" (R70). -/
def streamOps : List (BitVec 8) := [0x10, 0x11, 0x12, 0x20, 0x30, 0x31]

namespace CommandFields

/-- R74: the operation code is one of the nine. -/
def opKnown (f : CommandFields) : Bool := legalOps.contains f.op

/-- R74: `Z1` is zero. -/
def z1Zero (f : CommandFields) : Bool := f.z1 == 0

/-- R74: `Z0` is zero. -/
def z0Zero (f : CommandFields) : Bool := f.z0 == 0

/-- R74: a label stands only where the command has one. -/
def labelAllowed (f : CommandFields) : Bool := f.label == 0 || labelOps.contains f.op

/-- R74: a stream stands only where the command has one. -/
def streamAllowed (f : CommandFields) : Bool := f.s == 0 || streamOps.contains f.op

/-- R74: the word is legal. -/
def wellFormed (f : CommandFields) : Bool :=
  f.opKnown && f.z1Zero && f.z0Zero && f.labelAllowed && f.streamAllowed

end CommandFields

namespace Instr

/-- A command as syntax is always well formed: a stream is 0 or 1 (R71), every label is legal (R72), and a command
without one of the two has no place for it. What can be ill formed is a command word (`CommandFields.wellFormed`). -/
def wellFormed : Instr → Bool
  | .nop | .load | .clear => true
  | .kdfKey _ _ | .kdfSalt _ _ | .kdfAuth _ _ => true
  | .ctr _ | .tag _ | .verify _ => true

end Instr

end Sys2Proof
end

