-- ==== Sys2Proof/Decode.lean ====
section
/-! DEFINITION. The decoder of command words (30_encoding.md R75), total and rejecting by name; the encoder after it;
the table of R73; and the numbers of the registers (20_memory.md R63). -/

namespace Sys2Proof

/-- Why a word is not a command (30_encoding.md R74). Each reason is the one outcome `illegal` of R75; the first test
of R75 that fires names it. -/
inductive DecodeReject where
  /-- Bits 31:24 are not zero. -/
  | reservedZ1
  /-- Bits 15:9 are not zero. -/
  | reservedZ0
  /-- The operation code is none of the nine. -/
  | unknownOp
  /-- `S = 1` in `nop`, `load` or `clear`. -/
  | strayStream
  /-- A label in a command that has none. -/
  | strayLabel
  /-- Fewer than four bytes: no command word (R70). -/
  | tooShort
deriving DecidableEq, Repr

/-- The fields of a word (R70). -/
def CommandFields.ofWord (w : Word) : CommandFields where
  z1 := w.extractLsb' 24 8
  label := w.extractLsb' 16 8
  z0 := w.extractLsb' 9 7
  s := w.extractLsb' 8 1
  op := w.extractLsb' 0 8

/-- R71: `S = 0` selects media, `S = 1` control. -/
def streamOfBit (s : BitVec 1) : Stream := if s = 0 then .media else .control

/-- The arm of R75 for a command with no operand. -/
def bareCommand (i : Instr) (f : CommandFields) : Except DecodeReject Instr :=
  if f.s ≠ 0 then .error .strayStream
  else if f.label ≠ 0 then .error .strayLabel
  else .ok i

/-- The arm of R75 for a command with a stream. -/
def streamCommand (k : Stream → Instr) (f : CommandFields) : Except DecodeReject Instr :=
  if f.label ≠ 0 then .error .strayLabel
  else .ok (k (streamOfBit f.s))

/-- The arm of R75 for a command with a stream and a label. -/
def labelCommand (k : Stream → Byte → Instr) (f : CommandFields) : Except DecodeReject Instr :=
  .ok (k (streamOfBit f.s) f.label)

/-- R75 on the fields of a word. -/
def decodeFields (f : CommandFields) : Except DecodeReject Instr :=
  if f.z1 ≠ 0 then .error .reservedZ1
  else if f.z0 ≠ 0 then .error .reservedZ0
  else if f.op = 0x00 then bareCommand .nop f
  else if f.op = 0x01 then bareCommand .load f
  else if f.op = 0x02 then bareCommand .clear f
  else if f.op = 0x10 then labelCommand .kdfKey f
  else if f.op = 0x11 then labelCommand .kdfSalt f
  else if f.op = 0x12 then labelCommand .kdfAuth f
  else if f.op = 0x20 then streamCommand .ctr f
  else if f.op = 0x30 then streamCommand .tag f
  else if f.op = 0x31 then streamCommand .verify f
  else .error .unknownOp

/-- R75: decoding is total on 32-bit words. -/
def decodeWord (w : Word) : Except DecodeReject Instr := decodeFields (.ofWord w)

/-- Decoding from bytes: the first four bytes are the word, most significant byte first (20_memory.md R57, for a port
serialised as bytes); the rest is left over. -/
def decode : List Byte → Except DecodeReject (Instr × List Byte)
  | b0 :: b1 :: b2 :: b3 :: rest => (decodeWord (b0 ++ b1 ++ b2 ++ b3)).map (·, rest)
  | _ => .error .tooShort

/-- The instruction the decoder reads from the table's word `w` of `nbits` bits; every row of the table has 32. -/
def decodeTableWord (nbits w : Nat) : Option Instr :=
  if nbits ≤ 32 then (decodeWord (BitVec.ofNat 32 (w % 2 ^ nbits))).toOption else none

/-! ### The encoder -/

/-- The bit of a stream (R71). -/
def Stream.bit : Stream → BitVec 1
  | .media => 0
  | .control => 1

/-- The field `OP` of a command (R73). -/
def Instr.op : Instr → BitVec 8
  | .nop => 0x00
  | .load => 0x01
  | .clear => 0x02
  | .kdfKey _ _ => 0x10
  | .kdfSalt _ _ => 0x11
  | .kdfAuth _ _ => 0x12
  | .ctr _ => 0x20
  | .tag _ => 0x30
  | .verify _ => 0x31

/-- The field `S` of a command, zero where it has none (R75). -/
def Instr.streamBit : Instr → BitVec 1
  | .nop | .load | .clear => 0
  | .kdfKey b _ | .kdfSalt b _ | .kdfAuth b _ => b.bit
  | .ctr b | .tag b | .verify b => b.bit

/-- The field `LABEL` of a command, zero where it has none (R75). -/
def Instr.labelField : Instr → BitVec 8
  | .nop | .load | .clear => 0
  | .kdfKey _ l | .kdfSalt _ l | .kdfAuth _ l => l
  | .ctr _ | .tag _ | .verify _ => 0

/-- R75: `encode(c) = l << 16 | s << 8 | op`, absent fields zero. -/
def encode (i : Instr) : Word :=
  i.labelField.setWidth 32 <<< 16 ||| i.streamBit.setWidth 32 <<< 8 ||| i.op.setWidth 32

/-- The bytes of a command on a serialised port (20_memory.md R57). -/
def encodeBytes (i : Instr) : List Byte :=
  let w := encode i
  [w.extractLsb' 24 8, w.extractLsb' 16 8, w.extractLsb' 8 8, w.extractLsb' 0 8]

/-! ### The table of R73 -/

/-- A row of R73: "A word `w` is the command of a row when `w & mask = match`". -/
structure OpcodeRow where
  mnemonic : String
  pattern : Word
  mask : Word
deriving DecidableEq, Repr

/-- The nine rows of R73 (and of opcode_table.json). -/
def opcodeRows : List OpcodeRow := [
  { mnemonic := "nop", pattern := 0x00000000, mask := 0xFFFFFFFF },
  { mnemonic := "load", pattern := 0x00000001, mask := 0xFFFFFFFF },
  { mnemonic := "clear", pattern := 0x00000002, mask := 0xFFFFFFFF },
  { mnemonic := "kdf.key", pattern := 0x00000010, mask := 0xFF00FEFF },
  { mnemonic := "kdf.salt", pattern := 0x00000011, mask := 0xFF00FEFF },
  { mnemonic := "kdf.auth", pattern := 0x00000012, mask := 0xFF00FEFF },
  { mnemonic := "ctr", pattern := 0x00000020, mask := 0xFFFFFEFF },
  { mnemonic := "tag", pattern := 0x00000030, mask := 0xFFFFFEFF },
  { mnemonic := "verify", pattern := 0x00000031, mask := 0xFFFFFEFF }]

/-- The word is a command of the row (R73). -/
def OpcodeRow.covers (r : OpcodeRow) (w : Word) : Bool := w &&& r.mask == r.pattern

/-- The mnemonic of a command (R73). -/
def Instr.mnemonic : Instr → String
  | .nop => "nop"
  | .load => "load"
  | .clear => "clear"
  | .kdfKey _ _ => "kdf.key"
  | .kdfSalt _ _ => "kdf.salt"
  | .kdfAuth _ _ => "kdf.auth"
  | .ctr _ => "ctr"
  | .tag _ => "tag"
  | .verify _ => "verify"

/-! ### The register map of 20_memory.md R63 -/

/-- Who may use a register (the column "Host access" of R63). -/
inductive RegAccess where
  | readOnly
  | writeOnly
  | readWrite
deriving DecidableEq, Repr

namespace RegName

/-- The number of a register (R63). -/
def id : RegName → BitVec 8
  | .cmd => 0x00
  | .err => 0x01
  | .flags => 0x02
  | .kin => 0x10
  | .klen => 0x11
  | .sin => 0x12
  | .slen => 0x13
  | .mk => 0x14
  | .ms => 0x15
  | .sk0 => 0x20
  | .ss0 => 0x21
  | .sa0 => 0x22
  | .sk1 => 0x24
  | .ss1 => 0x25
  | .sa1 => 0x26
  | .seq => 0x30
  | .roc => 0x31
  | .ssrc => 0x32
  | .ctr => 0x33
  | .msglen => 0x40
  | .claim => 0x41
  | .tag => 0x42

/-- The width of a register in bits (R63). -/
def width : RegName → Nat
  | .cmd => 32
  | .err => 8
  | .flags => 16
  | .kin => 256
  | .klen => 8
  | .sin => 256
  | .slen => 8
  | .mk => 128
  | .ms => 112
  | .sk0 => 128
  | .ss0 => 112
  | .sa0 => 160
  | .sk1 => 128
  | .ss1 => 112
  | .sa1 => 160
  | .seq => 16
  | .roc => 32
  | .ssrc => 32
  | .ctr => 128
  | .msglen => 32
  | .claim => 80
  | .tag => 80

/-- Host access to a register (R63; R52 cases 2 and 3). -/
def access : RegName → RegAccess
  | .cmd => .writeOnly
  | .err | .flags => .readOnly
  | .kin | .klen | .sin | .slen => .readWrite
  | .mk | .ms => .readOnly
  | .sk0 | .ss0 | .sa0 | .sk1 | .ss1 | .sa1 => .readOnly
  | .seq | .roc | .ssrc => .readWrite
  | .ctr => .readOnly
  | .msglen | .claim => .readWrite
  | .tag => .readOnly

/-- The registers of R63, in order of their numbers. -/
def all : List RegName :=
  [.cmd, .err, .flags] ++ [.kin, .klen, .sin, .slen, .mk, .ms] ++ [.sk0, .ss0, .sa0, .sk1, .ss1, .sa1] ++
    [.seq, .roc, .ssrc, .ctr] ++ [.msglen, .claim, .tag]

/-- The register a number names: "Every number not listed is unimplemented and reserved" (R63). -/
def ofId (n : BitVec 8) : Option RegName := all.find? (·.id == n)

end RegName

end Sys2Proof
end

