-- ==== Sys2Proof/Machine/Port.lean ====
section
/-! DEFINITION. The register port (20_memory.md R51, R52, R63): reads and writes of registers and of `MSG`, and reset
(70_reset_and_hazards.md R210). A command write is told apart here and run by `step`. -/

namespace Sys2Proof.Machine

/-- A read of a register with a valid flag is answered only when the flag is 1 (R52 case 4). -/
def whenValid (valid : Bool) (v : PortValue) : Option PortValue := if valid then some v else none

/-- `RegRead` of a register: its value, or nothing where the read is refused (R52 cases 3 and 4). -/
def readReg (r : RegName) (a : Arch) : Option PortValue :=
  match r with
  | .cmd => none
  | .err => some ⟨8, a.err⟩
  | .flags => some ⟨16, a.flags⟩
  | .kin => some ⟨256, a.kin⟩
  | .klen => some ⟨8, a.klen⟩
  | .sin => some ⟨256, a.sin⟩
  | .slen => some ⟨8, a.slen⟩
  | .mk => whenValid a.mv ⟨128, a.mk⟩
  | .ms => whenValid a.mv ⟨112, a.ms⟩
  | .sk0 => whenValid a.skv.media ⟨128, a.sk.media⟩
  | .ss0 => whenValid a.ssv.media ⟨112, a.ss.media⟩
  | .sa0 => whenValid a.sav.media ⟨160, a.sa.media⟩
  | .sk1 => whenValid a.skv.control ⟨128, a.sk.control⟩
  | .ss1 => whenValid a.ssv.control ⟨112, a.ss.control⟩
  | .sa1 => whenValid a.sav.control ⟨160, a.sa.control⟩
  | .seq => some ⟨16, a.seq⟩
  | .roc => some ⟨32, a.roc⟩
  | .ssrc => some ⟨32, a.ssrc⟩
  | .ctr => whenValid a.ctrv ⟨128, a.ctr⟩
  | .msglen => some ⟨32, a.msglen⟩
  | .claim => some ⟨80, a.claim⟩
  | .tag => whenValid a.tagv ⟨80, a.tag⟩

/-- A write of a value of the register's own width: the register takes it, or nothing where the register is read-only
(R51, R52 case 2). A write of `CMD` is a command and stores nothing (10_state.md R21): `commandWord` takes it first. -/
def storeReg (r : RegName) (v : PortValue) (a : Arch) : Option Arch :=
  match r with
  | .cmd => none
  | .err | .flags => none
  | .kin => some { a with kin := v.bits.setWidth 256 }
  | .klen => some { a with klen := v.bits.setWidth 8 }
  | .sin => some { a with sin := v.bits.setWidth 256 }
  | .slen => some { a with slen := v.bits.setWidth 8 }
  | .mk | .ms => none
  | .sk0 | .ss0 | .sa0 | .sk1 | .ss1 | .sa1 => none
  | .seq => some { a with seq := v.bits.setWidth 16 }
  | .roc => some { a with roc := v.bits.setWidth 32 }
  | .ssrc => some { a with ssrc := v.bits.setWidth 32 }
  | .ctr => none
  | .msglen => some { a with msglen := v.bits.setWidth 32 }
  | .claim => some { a with claim := v.bits.setWidth 80 }
  | .tag => none

/-- `RegWrite` to a register other than `CMD`: refused also when the value is not of the register's width (R52 case 5,
R53). -/
def writeReg (r : RegName) (v : PortValue) (a : Arch) : Option Arch :=
  if v.width = r.width then storeReg r v a else none

/-- The word of a command, where the event is a `RegWrite(CMD, w)` with a value of `CMD`'s width (10_state.md R21). -/
def commandWord : HostEvent → Option Word
  | .port (.regWrite id v) =>
    if RegName.ofId id = some .cmd ∧ v.width = RegName.cmd.width then some (v.bits.setWidth 32) else none
  | .port (.regRead _) | .port (.msgWrite _ _) | .port (.msgRead _) => none
  | .reset => none

/-- A refused transaction: "changes no state at all and returns no data" (R51). -/
def refuse (s : State) : State := s.answered .nak

/-- `RegWrite(id, v)`, not a command (R51, R52). -/
def serveRegWrite (id : BitVec 8) (v : PortValue) (s : State) : State :=
  match (RegName.ofId id).bind fun r => writeReg r v s.arch with
  | some a => (s.mapArch fun _ => a).answered (.ack none)
  | none => refuse s

/-- `RegRead(id)` (R51, R52). -/
def serveRegRead (id : BitVec 8) (s : State) : State :=
  match (RegName.ofId id).bind fun r => readReg r s.arch with
  | some v => s.answered (.ack (some v))
  | none => refuse s

/-- `MsgWrite(off, b)` (R51, R52 case 6). -/
def serveMsgWrite (off : Word) (b : Byte) (s : State) : State :=
  if off.toNat < s.cfg.msgMax then
    (s.mapArch fun a => { a with msg := a.msg.write off.toNat b }).answered (.ack none)
  else refuse s

/-- `MsgRead(off)` (R51, R52 case 6). -/
def serveMsgRead (off : Word) (s : State) : State :=
  if off.toNat < s.cfg.msgMax then s.answered (.ack (some ⟨8, s.arch.msg.read off.toNat⟩)) else refuse s

/-- An event that is not a command. A reset puts every component to its reset value (70_reset_and_hazards.md R210,
R211) and is no transaction: nothing is answered. -/
def serve : HostEvent → State → State
  | .port (.regWrite id v), s => serveRegWrite id v s
  | .port (.regRead id), s => serveRegRead id s
  | .port (.msgWrite off b), s => serveMsgWrite off b s
  | .port (.msgRead off), s => serveMsgRead off s
  | .reset, s => s.mapArch fun _ => Arch.reset

/-- A command write is acknowledged after the command, whatever its outcome (R52: "A `RegWrite(CMD, w)` is always
answered `ACK`"; 10_state.md R21). -/
def acknowledge : Host.Outcome State Fault Refusal → Host.Outcome State Fault Refusal
  | .next s => .next (s.answered (.ack none))
  | .fault r => .fault r
  | .refused r => .refused r

/-- The event `RegWrite(CMD, w)`. -/
def commandEvent (w : Word) : HostEvent := .port (.regWrite 0x00 ⟨32, w⟩)

end Sys2Proof.Machine
end

