-- ==== Sys2Proof/Machine/Step.lean ====
section
/-! DEFINITION. One step: the oldest pending event is served (20_memory.md R59). -/

namespace Sys2Proof.Machine

/-- One step. With nothing pending the core "does nothing between commands" (00_scope.md R6); a command write runs its
command and is acknowledged (40_context.md R90); every other event is served by the port. -/
def step (s : State) : Host.Outcome State Fault Refusal :=
  match s.pending with
  | [] => .next s
  | e :: rest =>
    match commandWord e with
    | none => .next (serve e (s.withPending rest))
    | some w =>
      match decodeWord w with
      | .error _ => acknowledge (execIllegal (s.withPending rest))
      | .ok i => acknowledge (exec i (s.withPending rest))

/-- `s` with the host about to write the word `w` to `CMD`: the core fetches nothing, a command is the value of a port
write (20_memory.md R62), so the next event is where its next command comes from (notes/assumptions/1.md). -/
def State.withFetchWord (s : State) (nbits w : Nat) : State :=
  { s with pending := commandEvent (BitVec.ofNat 32 (w % 2 ^ nbits)) :: s.pending }

end Sys2Proof.Machine
end

