-- ==== Sys2Proof/Safety.lean ====
section
/-! DEFINITION. What claims are stated in: the invariants of 10_state.md R34, the refusals of 20_memory.md R52, and the
history of command outcomes of 60_exceptions.md R195. -/

namespace Sys2Proof.Machine

/-- A successful `load`'s two tests (40_context.md R92). -/
abbrev Arch.lengthsRight (a : Arch) : Prop := a.klen = 16 ∧ a.slen = 14

/-- The codes `ERR` can hold (10_state.md R34 item 5). -/
def writtenCodes : List (BitVec 8) := [0x00, 0x01, 0x02, 0x04, 0x05, 0x06]

/-- The invariants of the core "in every state reachable from reset" (10_state.md R34). -/
structure Arch.Inv (a : Arch) : Prop where
  /-- Item 1. -/
  match_valid : a.matched = true → a.matchv = true
  /-- Item 2. -/
  slots_loaded : ∀ b, a.skv.get b = true ∨ a.ssv.get b = true ∨ a.sav.get b = true → a.mv = true
  /-- Item 3. -/
  results_loaded : a.ctrv = true ∨ a.tagv = true ∨ a.matchv = true → a.mv = true
  /-- Item 4, the master secrets. -/
  masters_zero : a.mv = false → a.mk = 0 ∧ a.ms = 0
  /-- Item 4, the slots. -/
  slots_zero : ∀ b, (a.skv.get b = false → a.sk.get b = 0) ∧ (a.ssv.get b = false → a.ss.get b = 0) ∧
    (a.sav.get b = false → a.sa.get b = 0)
  /-- Item 4, the results. -/
  results_zero : (a.ctrv = false → a.ctr = 0) ∧ (a.tagv = false → a.tag = 0)
  /-- Item 5. -/
  err_written : a.err ∈ writtenCodes
  /-- Item 6, with some label for "the label of the last successful" derivation. -/
  slots_derived : ∀ b, (a.skv.get b = true → ∃ l, a.sk.get b = sessionKey a.mk a.ms l) ∧
    (a.ssv.get b = true → ∃ l, a.ss.get b = sessionSalt a.mk a.ms l) ∧
    (a.sav.get b = true → ∃ l, a.sa.get b = sessionAuthKey a.mk a.ms l)

/-- The invariant of the machine: R34, a legal `MSG_MAX` (00_scope.md R5), and `MSG` in canonical form with no byte at
an offset that does not exist (20_memory.md R50). -/
structure State.Inv (s : State) : Prop where
  cfg_legal : s.cfg.Legal
  arch : s.arch.Inv
  msg_wf : s.arch.msg.wf
  msg_inside : ∀ c ∈ s.arch.msg, c.1 < s.cfg.msgMax

/-! ### Frames: what a command leaves alone -/

/-- The staging and operand registers and every byte of `MSG` (the registers the host writes), and all that is not the
core. No command but `clear` writes any of them (10_state.md R24, R28, R30, R31). -/
structure SameOperands (s t : State) : Prop where
  kin : t.arch.kin = s.arch.kin
  klen : t.arch.klen = s.arch.klen
  sin : t.arch.sin = s.arch.sin
  slen : t.arch.slen = s.arch.slen
  seq : t.arch.seq = s.arch.seq
  roc : t.arch.roc = s.arch.roc
  ssrc : t.arch.ssrc = s.arch.ssrc
  msglen : t.arch.msglen = s.arch.msglen
  claim : t.arch.claim = s.arch.claim
  msg : ∀ off, t.arch.msg.read off = s.arch.msg.read off
  cfg : t.cfg = s.cfg
  pending : t.pending = s.pending
  answers : t.answers = s.answers

/-- The master secrets and their flag (10_state.md R25). -/
structure SameMasters (s t : State) : Prop where
  ofFields ::
  mv : t.arch.mv = s.arch.mv
  mk : t.arch.mk = s.arch.mk
  ms : t.arch.ms = s.arch.ms

/-- The session key of a stream and its flag (10_state.md R26). -/
def SameSk (b : Stream) (s t : State) : Prop :=
  t.arch.sk.get b = s.arch.sk.get b ∧ t.arch.skv.get b = s.arch.skv.get b

/-- The session salt of a stream and its flag (10_state.md R26). -/
def SameSs (b : Stream) (s t : State) : Prop :=
  t.arch.ss.get b = s.arch.ss.get b ∧ t.arch.ssv.get b = s.arch.ssv.get b

/-- The session authentication key of a stream and its flag (10_state.md R26). -/
def SameSa (b : Stream) (s t : State) : Prop :=
  t.arch.sa.get b = s.arch.sa.get b ∧ t.arch.sav.get b = s.arch.sav.get b

/-- The six slots and their flags (10_state.md R26). -/
def SameSlots (s t : State) : Prop := ∀ b, SameSk b s t ∧ SameSs b s t ∧ SameSa b s t

/-- `CTR` and its flag (10_state.md R29). -/
def SameCtr (s t : State) : Prop := t.arch.ctr = s.arch.ctr ∧ t.arch.ctrv = s.arch.ctrv

/-- `TAG` and its flag (10_state.md R32). -/
def SameTag (s t : State) : Prop := t.arch.tag = s.arch.tag ∧ t.arch.tagv = s.arch.tagv

/-- `MATCH` and its flag (10_state.md R33). -/
def SameMatch (s t : State) : Prop := t.arch.matched = s.arch.matched ∧ t.arch.matchv = s.arch.matchv

/-! ### The port -/

/-- The valid flag of a register that has one is 1 (20_memory.md R52 case 4); the others are always readable. -/
def validFlag (a : Arch) : RegName → Bool
  | .mk | .ms => a.mv
  | .sk0 => a.skv.media
  | .ss0 => a.ssv.media
  | .sa0 => a.sav.media
  | .sk1 => a.skv.control
  | .ss1 => a.ssv.control
  | .sa1 => a.sav.control
  | .ctr => a.ctrv
  | .tag => a.tagv
  | .cmd | .err | .flags | .kin | .klen | .sin | .slen | .seq | .roc | .ssrc | .msglen | .claim => true

/-- The six cases of 20_memory.md R52 in which a transaction is refused. -/
def nakCase (s : State) : Transaction → Prop
  | .regWrite id v =>
    RegName.ofId id = none ∨
      ∃ r, RegName.ofId id = some r ∧ (r.access = .readOnly ∨ v.width ≠ r.width)
  | .regRead id =>
    RegName.ofId id = none ∨
      ∃ r, RegName.ofId id = some r ∧ (r.access = .writeOnly ∨ validFlag s.arch r = false)
  | .msgWrite off _ => s.cfg.msgMax ≤ off.toNat
  | .msgRead off => s.cfg.msgMax ≤ off.toNat

/-- The event at the head of the list is a command write (10_state.md R21). -/
def State.commandNext (s : State) : Bool :=
  match s.pending with
  | [] => false
  | e :: _ => (commandWord e).isSome

/-- The outcomes of the commands of the next `k` steps, in order: the history of R195, which "the core keeps none" of. -/
def commandOutcomes : Nat → State → List (BitVec 8)
  | 0, _ => []
  | k + 1, s =>
    match step s with
    | .next t => (if s.commandNext then [t.arch.err] else []) ++ commandOutcomes k t
    | .fault _ => []
    | .refused _ => []

/-- "No error ever happened" in the next `k` steps (R195). -/
def NoErrorWithin (k : Nat) (s : State) : Prop := ∀ e ∈ commandOutcomes k s, e = okCode

end Sys2Proof.Machine
end

