-- ==== Sys2Proof/Certificates/Slice0/Obligations.lean ====
section
/-! DEFINITION. The statements about the core, from the numbered rules of spec/. Each docstring names the rule. The
fields `pending`, `answers` and `cfg` of a state are the model's own (notes/assumptions/1.md, 2.md and 3.md); where a
statement names one of them, that clause is the model's. -/

open Sys2Proof Sys2Proof.Machine

/-! ### Encoding (30_encoding.md) -/

/-- R75: decoding undoes encoding for every command, as a word and as bytes; encoding undoes decoding for every legal
word. -/
def Obligations.DecodeAndEncodeAgree : Prop :=
  (∀ i, decodeWord (encode i) = .ok i) ∧
  (∀ i rest, decode (encodeBytes i ++ rest) = .ok (i, rest)) ∧
  (∀ w i, decodeWord w = .ok i → encode i = w)

/-- R73: a word decodes to a command exactly when it is the word of that command's row, and of at most one row. -/
def Obligations.DecodeAgreesWithOpcodeTable : Prop :=
  (∀ w i, decodeWord w = .ok i → ∃ r ∈ opcodeRows, r.covers w = true ∧ r.mnemonic = i.mnemonic) ∧
  (∀ w, ∀ r ∈ opcodeRows, r.covers w = true → ∃ i, decodeWord w = .ok i ∧ i.mnemonic = r.mnemonic) ∧
  (∀ w, ∀ r ∈ opcodeRows, ∀ q ∈ opcodeRows, r.covers w = true → q.covers w = true → r = q)

/-- R74: the illegal words are those with an unknown operation code, a reserved bit, or a stream or label where the
command has none. They are the words that match no row; none decodes; and each executes as `ERR <- 0x06` and nothing
else, acknowledged. -/
def Obligations.IllegalWordsOnlySetErr : Prop :=
  (∀ w, (∀ r ∈ opcodeRows, r.covers w = false) ↔
    ((CommandFields.ofWord w).op ∉ legalOps ∨ w.extractLsb' 24 8 ≠ 0 ∨ w.extractLsb' 9 7 ≠ 0 ∨
      ((CommandFields.ofWord w).op ∈ [0x00, 0x01, 0x02] ∧ (w.extractLsb' 8 1 = 1 ∨ w.extractLsb' 16 8 ≠ 0)) ∨
      ((CommandFields.ofWord w).op ∈ [0x20, 0x30, 0x31] ∧ w.extractLsb' 16 8 ≠ 0))) ∧
  (∀ w, (∀ r ∈ opcodeRows, r.covers w = false) ↔ ∃ e, decodeWord w = .error e) ∧
  (∀ w, (CommandFields.ofWord w).wellFormed = false ↔ ∃ e, decodeWord w = .error e) ∧
  (∀ s w rest, s.pending = commandEvent w :: rest → (∀ r ∈ opcodeRows, r.covers w = false) →
    step s = .next { s with
      pending := rest
      arch := { s.arch with err := 0x06 }
      answers := .ack none :: s.answers })

/-- Words of 95_test_vectors.md section 3.4 and of the command rules, read as the spec reads them. -/
def Obligations.WordsOfTheSpecDecode : Prop :=
  decodeWord 0x00000000 = .ok .nop ∧ decodeWord 0x00000001 = .ok .load ∧ decodeWord 0x00000002 = .ok .clear ∧
  decodeWord 0x00000010 = .ok (.kdfKey .media 0x00) ∧ decodeWord 0x00FF0110 = .ok (.kdfKey .control 0xFF) ∧
  decodeWord 0x00050111 = .ok (.kdfSalt .control 0x05) ∧ decodeWord 0x00010012 = .ok (.kdfAuth .media 0x01) ∧
  decodeWord 0x00000120 = .ok (.ctr .control) ∧ decodeWord 0x00000030 = .ok (.tag .media) ∧
  decodeWord 0x00000031 = .ok (.verify .media)

/-! ### Steps -/

/-- R90, R21: when the host's next transaction writes a legal word to `CMD`, the step is the command's, then the
acknowledgement; the core moves on to the host's next event. -/
def Obligations.StepRunsTheDecodedCommand : Prop :=
  ∀ s w rest i, s.pending = commandEvent w :: rest → decodeWord w = .ok i →
    step s = acknowledge (exec i { s with pending := rest }) ∧
    ∀ t, exec i { s with pending := rest } = .next t →
      step s = .next { t with answers := .ack none :: t.answers }

/-- R6: the core "does nothing between commands": with nothing pending a step changes nothing. That the host's events
stand in the state is the model's choice (notes/assumptions/1.md). -/
def Obligations.IdleStepChangesNothing : Prop :=
  ∀ s : State, s.pending = [] → step s = .next s

/-- R9: "Every command ends in exactly one of: `OK` (`ERR = 0x00`) or one named error", an illegal word too; nothing
stops the machine. -/
def Obligations.EveryCommandEndsOkOrWithANamedError : Prop :=
  (∀ i s, ∃ t, exec i s = .next t ∧
    (t.arch.err = 0x00 ∨ ∃ e : ErrorKind, e ≠ .cipherInitializationFailure ∧ t.arch.err = e.code)) ∧
  (∀ s, ∃ t, execIllegal s = .next t ∧ t.arch.err = ErrorKind.illegalCommand.code) ∧
  (∀ s, ∃ t, step s = .next t)

/-- 10_state.md R36, 40_context.md R90: a command neither reads nor changes what is pending and what was answered, and
it leaves `MSG_MAX` alone (`tag` and `verify` read `MSG_MAX`, R131 and R133). That `pending`, `answers` and `MSG_MAX`
stand in the state is the model's choice (notes/assumptions/1.md, 2.md and 3.md). -/
def Obligations.CommandsSeeOnlyTheCore : Prop :=
  ∀ i s p x t, exec i s = .next t →
    t.pending = s.pending ∧ t.answers = s.answers ∧ t.cfg = s.cfg ∧
    exec i { s with pending := p, answers := x } = .next { t with pending := p, answers := x }

/-! ### The context commands (40_context.md) -/

/-- R91: `nop`, the word `0x00000000`, sets `ERR` to `OK` and changes nothing else. -/
def Obligations.NopSetsErrOk : Prop :=
  encode .nop = 0x00000000 ∧
  ∀ s, exec .nop s = .next { s with arch := { s.arch with err := 0x00 } }

/-- R92: `load`. With the right lengths it installs the new Context; otherwise it writes the error of the first wrong
length and nothing else. -/
def Obligations.LoadInstallsTheContextOrNamesTheLength : Prop :=
  encode .load = 0x00000001 ∧
  (∀ s : State, s.arch.klen = 16 → s.arch.slen = 14 →
    exec .load s = .next { s with arch := { s.arch with
      mk := s.arch.kin.extractLsb' 128 128
      ms := s.arch.sin.extractLsb' 144 112
      mv := true
      sk := ⟨0, 0⟩, ss := ⟨0, 0⟩, sa := ⟨0, 0⟩
      skv := ⟨false, false⟩, ssv := ⟨false, false⟩, sav := ⟨false, false⟩
      ctr := 0, ctrv := false
      tag := 0, tagv := false
      matched := false, matchv := false
      err := 0x00 } }) ∧
  (∀ s : State, s.arch.klen ≠ 16 → exec .load s = .next { s with arch := { s.arch with err := 0x01 } }) ∧
  (∀ s : State, s.arch.klen = 16 → s.arch.slen ≠ 14 →
    exec .load s = .next { s with arch := { s.arch with err := 0x02 } })

/-- R92, R24: the bytes `load` takes: `MK[i] = KIN[i]` for `i < 16`, `MS[i] = SIN[i]` for `i < 14`; the bytes of the
staging registers beyond them are never read. -/
def Obligations.LoadTakesTheLeadingStagingBytes : Prop :=
  (∀ s t : State, s.arch.klen = 16 → s.arch.slen = 14 → exec .load s = .next t →
    (∀ i < 16, byteAt t.arch.mk i = byteAt s.arch.kin i) ∧ (∀ i < 14, byteAt t.arch.ms i = byteAt s.arch.sin i)) ∧
  (∀ (s : State) (k n : Bytes32) (t : State),
    (∀ i < 16, byteAt k i = byteAt s.arch.kin i) → (∀ i < 14, byteAt n i = byteAt s.arch.sin i) →
    exec .load s = .next t →
    exec .load { s with arch := { s.arch with kin := k, sin := n } } =
      .next { t with arch := { t.arch with kin := k, sin := n } })

/-- R93: `clear`, the word `0x00000002`: "after `clear` the state is equal to the reset state in every component". -/
def Obligations.ClearEqualsReset : Prop :=
  encode .clear = 0x00000002 ∧
  (∀ s, exec .clear s = .next { s with arch := Arch.reset }) ∧
  (∀ c, exec .clear (.resetWith c) = .next (.resetWith c))

/-! ### Key derivation (41_kdf.md) -/

/-- R102: `kdf.key s, l`, with `KdfBlock` written out as R101 gives it. -/
def Obligations.KdfKeyWritesBlockZero : Prop :=
  ∀ (b : Stream) (l : Byte),
    encode (.kdfKey b l) = l.setWidth 32 <<< 16 ||| b.bit.setWidth 32 <<< 8 ||| 0x10 ∧
    (∀ s : State, s.arch.mv = true →
      exec (.kdfKey b l) s = .next { s with arch := { s.arch with
        sk := s.arch.sk.set b (Aes.encrypt s.arch.mk (kdfInput s.arch.ms l 0x0000))
        skv := s.arch.skv.set b true
        err := 0x00 } }) ∧
    (∀ s : State, s.arch.mv = false →
      exec (.kdfKey b l) s = .next { s with arch := { s.arch with err := 0x05 } })

/-- R103: `kdf.salt s, l`: the first 14 bytes of block 0; "`b[14]`, `b[15]` are discarded". `KdfBlock` is written out as
R101 gives it. -/
def Obligations.KdfSaltWritesTheFirstFourteenBytes : Prop :=
  ∀ (b : Stream) (l : Byte),
    encode (.kdfSalt b l) = l.setWidth 32 <<< 16 ||| b.bit.setWidth 32 <<< 8 ||| 0x11 ∧
    (∀ s : State, s.arch.mv = true →
      exec (.kdfSalt b l) s = .next { s with arch := { s.arch with
        ss := s.arch.ss.set b ((Aes.encrypt s.arch.mk (kdfInput s.arch.ms l 0x0000)).extractLsb' 16 112)
        ssv := s.arch.ssv.set b true
        err := 0x00 } }) ∧
    (∀ s : State, s.arch.mv = false →
      exec (.kdfSalt b l) s = .next { s with arch := { s.arch with err := 0x05 } })

/-- R104: `kdf.auth s, l`: `b0 ‖ b1[0..4)`, with `KdfBlock` written out as R101 gives it. -/
def Obligations.KdfAuthWritesTwentyBytes : Prop :=
  ∀ (b : Stream) (l : Byte),
    encode (.kdfAuth b l) = l.setWidth 32 <<< 16 ||| b.bit.setWidth 32 <<< 8 ||| 0x12 ∧
    (∀ s : State, s.arch.mv = true →
      exec (.kdfAuth b l) s = .next { s with arch := { s.arch with
        sa := s.arch.sa.set b
          (Aes.encrypt s.arch.mk (kdfInput s.arch.ms l 0x0000) ++
            (Aes.encrypt s.arch.mk (kdfInput s.arch.ms l 0x0001)).extractLsb' 96 32)
        sav := s.arch.sav.set b true
        err := 0x00 } }) ∧
    (∀ s : State, s.arch.mv = false →
      exec (.kdfAuth b l) s = .next { s with arch := { s.arch with err := 0x05 } })

/-- R78, R100: the bytes of the KDF input block. Where the label falls is an inference R78 marks as its own (derived from
R7), and the order of the suffix is the spec's decision D21. -/
def Obligations.KdfInputLayout : Prop :=
  ∀ (ms : Bytes14) (l : Byte) (idx : BitVec 16),
    (∀ i < 7, byteAt (kdfInput ms l idx) i = byteAt ms i) ∧
    byteAt (kdfInput ms l idx) 7 = byteAt ms 7 ^^^ l ∧
    (∀ i, 8 ≤ i → i < 14 → byteAt (kdfInput ms l idx) i = byteAt ms i) ∧
    byteAt (kdfInput ms l idx) 14 = idx.extractLsb' 8 8 ∧
    byteAt (kdfInput ms l idx) 15 = idx.extractLsb' 0 8

/-- R106, an inference the spec marks as its own (derived from R102 to R104): the three shapes are the leading 16, 14
and 20 bytes of one 32-byte keystream; so with equal labels the salt and the key are the leading bytes of the key and
the authentication key. -/
def Obligations.SessionMaterialIsAPrefixOfTheKeystream : Prop :=
  ∀ (b : Stream) (l : Byte) (s t1 t2 t3 : State) (ks : Bytes32),
    ks = Aes.encrypt s.arch.mk (kdfInput s.arch.ms l 0x0000) ++
      Aes.encrypt s.arch.mk (kdfInput s.arch.ms l 0x0001) →
    s.arch.mv = true →
    exec (.kdfKey b l) s = .next t1 → exec (.kdfSalt b l) s = .next t2 → exec (.kdfAuth b l) s = .next t3 →
    t1.arch.sk.get b = ks.extractLsb' 128 128 ∧ t2.arch.ss.get b = ks.extractLsb' 144 112 ∧
    t3.arch.sa.get b = ks.extractLsb' 96 160 ∧
    t2.arch.ss.get b = (t1.arch.sk.get b).extractLsb' 16 112 ∧
    (t3.arch.sa.get b).extractLsb' 32 128 = t1.arch.sk.get b

/-- R105: what a derivation writes is "a function of `(MK, MS, l)` alone", whatever else the two cores hold and whichever
stream each derives for (R102: "the same `l` in both streams gives `SK[0] = SK[1]`"). -/
def Obligations.DerivationsDependOnMastersAndLabelOnly : Prop :=
  ∀ (b c : Stream) (l : Byte) (s u : State),
    s.arch.mv = true → u.arch.mv = true → s.arch.mk = u.arch.mk → s.arch.ms = u.arch.ms →
    (∀ t v, exec (.kdfKey b l) s = .next t → exec (.kdfKey c l) u = .next v →
      t.arch.sk.get b = v.arch.sk.get c) ∧
    (∀ t v, exec (.kdfSalt b l) s = .next t → exec (.kdfSalt c l) u = .next v →
      t.arch.ss.get b = v.arch.ss.get c) ∧
    (∀ t v, exec (.kdfAuth b l) s = .next t → exec (.kdfAuth c l) u = .next v →
      t.arch.sa.get b = v.arch.sa.get c)

/-- The frame of the derivations (R102 to R105): "apart from the destination slot, its flag and `ERR`, nothing
changes". -/
def Obligations.DerivationFrame : Prop :=
  ∀ (b : Stream) (l : Byte) (s t : State),
    (exec (.kdfKey b l) s = .next t →
      SameOperands s t ∧ SameMasters s t ∧ SameCtr s t ∧ SameTag s t ∧ SameMatch s t ∧
      ∀ c, (c ≠ b → SameSk c s t) ∧ SameSs c s t ∧ SameSa c s t) ∧
    (exec (.kdfSalt b l) s = .next t →
      SameOperands s t ∧ SameMasters s t ∧ SameCtr s t ∧ SameTag s t ∧ SameMatch s t ∧
      ∀ c, SameSk c s t ∧ (c ≠ b → SameSs c s t) ∧ SameSa c s t) ∧
    (exec (.kdfAuth b l) s = .next t →
      SameOperands s t ∧ SameMasters s t ∧ SameCtr s t ∧ SameTag s t ∧ SameMatch s t ∧
      ∀ c, SameSk c s t ∧ SameSs c s t ∧ (c ≠ b → SameSa c s t))

/-! ### The counter builder (42_counter.md) -/

/-- R121: `ctr s`, with a salt and without. -/
def Obligations.CtrBuildsTheCounterBlock : Prop :=
  ∀ b : Stream,
    encode (.ctr b) = b.bit.setWidth 32 <<< 8 ||| 0x20 ∧
    (∀ s : State, s.arch.ssv.get b = true →
      exec (.ctr b) s = .next { s with arch := { s.arch with
        ctr := buildCounter s.arch.seq s.arch.roc s.arch.ssrc (s.arch.ss.get b)
        ctrv := true
        err := 0x00 } }) ∧
    (∀ s : State, s.arch.ssv.get b = false →
      exec (.ctr b) s = .next { s with arch := { s.arch with ctr := 0, ctrv := false, err := 0x05 } })

/-- R79: the bytes of the counter block before and after the salt, and its value read as one number, which R79 marks as
its own inference (derived from the layout). -/
def Obligations.CounterBlockLayout : Prop :=
  ∀ (seq : BitVec 16) (roc ssrc : Word) (ss : Bytes14),
    (∀ i < 4, byteAt (plainCounter seq roc ssrc) i = 0) ∧
    (∀ k < 4, byteAt (plainCounter seq roc ssrc) (4 + k) = byteAt ssrc k) ∧
    (∀ k < 4, byteAt (plainCounter seq roc ssrc) (8 + k) = byteAt roc k) ∧
    (∀ k < 2, byteAt (plainCounter seq roc ssrc) (12 + k) = byteAt seq k) ∧
    byteAt (plainCounter seq roc ssrc) 14 = 0 ∧ byteAt (plainCounter seq roc ssrc) 15 = 0 ∧
    (∀ i < 4, byteAt (buildCounter seq roc ssrc ss) i = byteAt ss i) ∧
    (∀ k < 4, byteAt (buildCounter seq roc ssrc ss) (4 + k) = byteAt ssrc k ^^^ byteAt ss (4 + k)) ∧
    (∀ k < 4, byteAt (buildCounter seq roc ssrc ss) (8 + k) = byteAt roc k ^^^ byteAt ss (8 + k)) ∧
    (∀ k < 2, byteAt (buildCounter seq roc ssrc ss) (12 + k) = byteAt seq k ^^^ byteAt ss (12 + k)) ∧
    byteAt (buildCounter seq roc ssrc ss) 14 = 0 ∧ byteAt (buildCounter seq roc ssrc ss) 15 = 0 ∧
    (plainCounter seq roc ssrc).toNat = ssrc.toNat * 2 ^ 64 + roc.toNat * 2 ^ 32 + seq.toNat * 2 ^ 16 ∧
    (plainCounter seq roc ssrc).toNat = ssrc.toNat * 2 ^ 64 + (2 ^ 16 * roc.toNat + seq.toNat) * 2 ^ 16 ∧
    buildCounter seq roc ssrc ss = plainCounter seq roc ssrc ^^^ BitVec.ofNat 128 (ss.toNat * 2 ^ 16)

/-- R120: for a fixed salt, "distinct inputs `(seq, roc, ssrc)` give distinct blocks". -/
def Obligations.CounterBlocksAreDistinct : Prop :=
  ∀ (ss : Bytes14) (seq seq' : BitVec 16) (roc roc' ssrc ssrc' : Word),
    buildCounter seq roc ssrc ss = buildCounter seq' roc' ssrc' ss → seq = seq' ∧ roc = roc' ∧ ssrc = ssrc'

/-- R122: equal operands give equal blocks; a change of `SEQ` alone shows in bytes 12 and 13 only, as
`be16(SEQ1 xor SEQ2)`; a change of `ROC` alone in bytes 8 to 11 and of `SSRC` alone in bytes 4 to 7, which R122 marks as
its own inference (derived from R120). -/
def Obligations.CounterChangesAreConfined : Prop :=
  (∀ (b : Stream) (s u t v : State), s.arch.seq = u.arch.seq → s.arch.roc = u.arch.roc → s.arch.ssrc = u.arch.ssrc →
    s.arch.ss.get b = u.arch.ss.get b → s.arch.ssv.get b = true → u.arch.ssv.get b = true →
    exec (.ctr b) s = .next t → exec (.ctr b) u = .next v → t.arch.ctr = v.arch.ctr) ∧
  (∀ (b : Stream) (s u t v : State), s.arch.roc = u.arch.roc → s.arch.ssrc = u.arch.ssrc →
    s.arch.ss.get b = u.arch.ss.get b → s.arch.ssv.get b = true → u.arch.ssv.get b = true →
    exec (.ctr b) s = .next t → exec (.ctr b) u = .next v →
    t.arch.ctr ^^^ v.arch.ctr = (0 : BitVec 96) ++ (s.arch.seq ^^^ u.arch.seq) ++ (0 : BitVec 16)) ∧
  (∀ (b : Stream) (s u t v : State), s.arch.seq = u.arch.seq → s.arch.ssrc = u.arch.ssrc →
    s.arch.ss.get b = u.arch.ss.get b → s.arch.ssv.get b = true → u.arch.ssv.get b = true →
    exec (.ctr b) s = .next t → exec (.ctr b) u = .next v →
    ∀ i < 16, ¬ (8 ≤ i ∧ i ≤ 11) → byteAt t.arch.ctr i = byteAt v.arch.ctr i) ∧
  (∀ (b : Stream) (s u t v : State), s.arch.seq = u.arch.seq → s.arch.roc = u.arch.roc →
    s.arch.ss.get b = u.arch.ss.get b → s.arch.ssv.get b = true → u.arch.ssv.get b = true →
    exec (.ctr b) s = .next t → exec (.ctr b) u = .next v →
    ∀ i < 16, ¬ (4 ≤ i ∧ i ≤ 7) → byteAt t.arch.ctr i = byteAt v.arch.ctr i)

/-! ### The authenticator (43_authenticator.md) -/

/-- R131: `tag s`, in its three cases. -/
def Obligations.TagComputesTheTruncatedHmac : Prop :=
  ∀ b : Stream,
    encode (.tag b) = b.bit.setWidth 32 <<< 8 ||| 0x30 ∧
    (∀ s : State, s.arch.sav.get b = true → s.arch.msglen.toNat ≤ s.cfg.msgMax →
      exec (.tag b) s = .next { s with arch := { s.arch with
        tag := computeTag (s.arch.sa.get b) (s.arch.msg.readBytes 0 s.arch.msglen.toNat)
        tagv := true
        err := 0x00 } }) ∧
    (∀ s : State, s.arch.sav.get b = false →
      exec (.tag b) s = .next { s with arch := { s.arch with tag := 0, tagv := false, err := 0x05 } }) ∧
    (∀ s : State, s.arch.sav.get b = true → s.cfg.msgMax < s.arch.msglen.toNat →
      exec (.tag b) s = .next { s with arch := { s.arch with tag := 0, tagv := false, err := 0x04 } })

/-- R133: `verify s`, in its three cases: `MATCH` is 1 exactly when the tag of the message equals `CLAIM`. -/
def Obligations.VerifyComparesWithTheClaim : Prop :=
  ∀ b : Stream,
    encode (.verify b) = b.bit.setWidth 32 <<< 8 ||| 0x31 ∧
    (∀ s : State, s.arch.sav.get b = true → s.arch.msglen.toNat ≤ s.cfg.msgMax →
      exec (.verify b) s = .next { s with arch := { s.arch with
        matched := decide
          (computeTag (s.arch.sa.get b) (s.arch.msg.readBytes 0 s.arch.msglen.toNat) = s.arch.claim)
        matchv := true
        err := 0x00 } }) ∧
    (∀ s : State, s.arch.sav.get b = false →
      exec (.verify b) s = .next { s with arch := { s.arch with matched := false, matchv := false, err := 0x05 } }) ∧
    (∀ s : State, s.arch.sav.get b = true → s.cfg.msgMax < s.arch.msglen.toNat →
      exec (.verify b) s = .next { s with arch := { s.arch with matched := false, matchv := false, err := 0x04 } })

/-- R132: `TagsEqual(a, b)` is true exactly when `a[i] = b[i]` for all ten `i`, that is when `a = b`. -/
def Obligations.TagsEqualIsEquality : Prop :=
  ∀ x y : Bytes10,
    (tagsEqual x y = true ↔ ∀ i < 10, byteAt x i = byteAt y i) ∧ (tagsEqual x y = true ↔ x = y)

/-- R134: the round trip. A tag the core computed, claimed for the same message under the same slot, is accepted. -/
def Obligations.ComputedTagIsAccepted : Prop :=
  ∀ (b : Stream) (s t u : State), s.arch.sav.get b = true → s.arch.msglen.toNat ≤ s.cfg.msgMax →
    exec (.tag b) s = .next t →
    u.cfg = t.cfg → u.arch.msglen = t.arch.msglen → (∀ off, u.arch.msg.read off = t.arch.msg.read off) →
    u.arch.sa.get b = t.arch.sa.get b → u.arch.sav.get b = true → u.arch.claim = t.arch.tag →
    ∃ v, exec (.verify b) u = .next v ∧ v.arch.err = 0x00 ∧ v.arch.matchv = true ∧ v.arch.matched = true

/-- R201: a claim that differs from the computed tag is no error: `ERR = 0x00`, `MATCHV = 1`, `MATCH = 0`; a
message the hash cannot take is an error and never looks like a mismatch: `ERR = 0x04`, `MATCHV = 0`. -/
def Obligations.MismatchIsNotAnError : Prop :=
  (∀ (b : Stream) (s t u : State), s.arch.sav.get b = true → s.arch.msglen.toNat ≤ s.cfg.msgMax →
    exec (.tag b) s = .next t → s.arch.claim ≠ t.arch.tag → exec (.verify b) s = .next u →
    u.arch.err = 0x00 ∧ u.arch.matchv = true ∧ u.arch.matched = false) ∧
  (∀ (b : Stream) (s u : State), exec (.verify b) s = .next u →
    (u.arch.err = 0x04 → u.arch.matchv = false) ∧ (u.arch.matchv = true → u.arch.err = 0x00))

/-- 10_state.md R30: "Bytes at offset `MSGLEN` and above are never read by the core": two machines that agree on the
message and the key compute the same tag and the same verdict. -/
def Obligations.BytesBeyondTheMessageAreNotRead : Prop :=
  ∀ (b : Stream) (s u : State), s.cfg = u.cfg → s.arch.msglen = u.arch.msglen →
    (∀ off < s.arch.msglen.toNat, s.arch.msg.read off = u.arch.msg.read off) →
    s.arch.sa.get b = u.arch.sa.get b → s.arch.sav.get b = u.arch.sav.get b → s.arch.claim = u.arch.claim →
    (∀ t v, exec (.tag b) s = .next t → exec (.tag b) u = .next v →
      t.arch.tag = v.arch.tag ∧ t.arch.tagv = v.arch.tagv ∧ t.arch.err = v.arch.err) ∧
    (∀ t v, exec (.verify b) s = .next t → exec (.verify b) u = .next v →
      t.arch.matched = v.arch.matched ∧ t.arch.matchv = v.arch.matchv ∧ t.arch.err = v.arch.err)

/-- The frame of `ctr`, `tag` and `verify` (R121, R131, R133): each writes its own result and `ERR`, on success and on
error, and nothing else; no byte of `MSG` changes. -/
def Obligations.PerPacketFrame : Prop :=
  ∀ (b : Stream) (s t : State),
    (exec (.ctr b) s = .next t → SameOperands s t ∧ SameMasters s t ∧ SameSlots s t ∧ SameTag s t ∧ SameMatch s t) ∧
    (exec (.tag b) s = .next t → SameOperands s t ∧ SameMasters s t ∧ SameSlots s t ∧ SameCtr s t ∧ SameMatch s t) ∧
    (exec (.verify b) s = .next t → SameOperands s t ∧ SameMasters s t ∧ SameSlots s t ∧ SameCtr s t ∧ SameTag s t)

/-- The frame of the context commands (R91 to R93): `nop` and a failed `load` change `ERR` only, no `load` writes a
staging or operand register or a byte of `MSG`, and `clear` takes every component to its reset value and leaves only
what is not the core: `MSG_MAX`, what is pending and what was answered, the model's own fields (notes/assumptions/1.md,
2.md and 3.md). -/
def Obligations.ContextFrame : Prop :=
  ∀ s t : State,
    (exec .nop s = .next t →
      SameOperands s t ∧ SameMasters s t ∧ SameSlots s t ∧ SameCtr s t ∧ SameTag s t ∧ SameMatch s t) ∧
    (exec .load s = .next t → SameOperands s t ∧
      (¬ s.arch.lengthsRight → SameMasters s t ∧ SameSlots s t ∧ SameCtr s t ∧ SameTag s t ∧ SameMatch s t)) ∧
    (exec .clear s = .next t → t.arch = Arch.reset ∧ t.cfg = s.cfg ∧ t.pending = s.pending ∧ t.answers = s.answers)

/-! ### The primitives (44_aes128.md, 45_sha1_hmac.md) -/

/-- R151: the products of the field that MixColumns needs, the worked examples, and that every `a ≠ 0` has exactly one
inverse. -/
def Obligations.FieldArithmetic : Prop :=
  (∀ a, Aes.mul a 0x01 = a ∧ Aes.mul a 0x02 = Aes.xtime a ∧ Aes.mul a 0x03 = Aes.xtime a ^^^ a) ∧
  Aes.xtime 0x57 = 0xAE ∧ Aes.xtime 0xAE = 0x47 ∧ Aes.mul 0x57 0x13 = 0xFE ∧ Aes.mul 0x57 0x83 = 0xC1 ∧
  (∀ a, a ≠ 0 → ∃ b, Aes.mul a b = 0x01 ∧ ∀ c, Aes.mul a c = 0x01 → c = b)

/-- R152: the table agrees with the formula on all 256 entries, and is a permutation of the bytes. -/
def Obligations.SboxTableAgreesWithFormula : Prop :=
  (∀ a b, Aes.mul a b = 0x01 → Aes.sbox a = Aes.sboxAffine b) ∧
  Aes.sbox 0x00 = Aes.sboxAffine 0x00 ∧ Aes.sbox 0x53 = 0xED ∧
  (∀ a b, Aes.sbox a = Aes.sbox b → a = b)

/-- R153 to R156: the round transformations on `st[r][c]`, byte `r + 4 * c` of the string (R150). -/
def Obligations.RoundTransformations : Prop :=
  ∀ (st rk : Bytes16) (r c : Nat), r < 4 → c < 4 →
    byteAt (Aes.subBytes st) (r + 4 * c) = Aes.sbox (byteAt st (r + 4 * c)) ∧
    byteAt (Aes.shiftRows st) (r + 4 * c) = byteAt st (r + 4 * ((c + r) % 4)) ∧
    byteAt (Aes.mixColumns st) (r + 4 * c) =
      Aes.mul (byteAt st (r + 4 * c)) 0x02 ^^^ Aes.mul (byteAt st ((r + 1) % 4 + 4 * c)) 0x03 ^^^
        byteAt st ((r + 2) % 4 + 4 * c) ^^^ byteAt st ((r + 3) % 4 + 4 * c) ∧
    byteAt (Aes.addRoundKey st rk) (r + 4 * c) = byteAt st (r + 4 * c) ^^^ byteAt rk (r + 4 * c)

/-- R157: the 44 words of the key schedule, `RotWord` and `SubWord` written out byte by byte, and the round keys. -/
def Obligations.KeyScheduleRecurrence : Prop :=
  (Aes.rcon 1 = 0x01 ∧ ∀ j, 1 ≤ j → j < 10 → Aes.rcon (j + 1) = Aes.xtime (Aes.rcon j)) ∧
  ∀ k : Bytes16, (Aes.keyExpansion k).length = 44 ∧
    (∀ i < 4, (Aes.keyExpansion k)[i]? =
      some (wordOf (byteAt k (4 * i)) (byteAt k (4 * i + 1)) (byteAt k (4 * i + 2)) (byteAt k (4 * i + 3)))) ∧
    (∀ i, 4 ≤ i → i < 44 → ∃ p q, (Aes.keyExpansion k)[i - 1]? = some p ∧ (Aes.keyExpansion k)[i - 4]? = some q ∧
      (Aes.keyExpansion k)[i]? = some (q ^^^
        if i % 4 = 0 then
          wordOf (Aes.sbox (byteAt p 1) ^^^ Aes.rcon (i / 4)) (Aes.sbox (byteAt p 2)) (Aes.sbox (byteAt p 3))
            (Aes.sbox (byteAt p 0))
        else p)) ∧
    Aes.roundKey (Aes.keyExpansion k) 0 = k ∧
    (∀ j ≤ 10, ∃ w0 w1 w2 w3, (Aes.keyExpansion k)[4 * j]? = some w0 ∧ (Aes.keyExpansion k)[4 * j + 1]? = some w1 ∧
      (Aes.keyExpansion k)[4 * j + 2]? = some w2 ∧ (Aes.keyExpansion k)[4 * j + 3]? = some w3 ∧
      Aes.roundKey (Aes.keyExpansion k) j = w0 ++ w1 ++ w2 ++ w3)

/-- R159: `AES128_Enc` is its ten rounds, the last without MixColumns, and, "for a fixed `k`, a permutation of the
16-byte blocks". -/
def Obligations.CipherIsAPermutation : Prop :=
  ∀ k : Bytes16,
    (∀ b : Bytes16, ∃ st : Nat → Bytes16,
      st 0 = Aes.addRoundKey b (Aes.roundKey (Aes.keyExpansion k) 0) ∧
      (∀ j, 1 ≤ j → j ≤ 9 → st j = Aes.addRoundKey (Aes.mixColumns (Aes.shiftRows (Aes.subBytes (st (j - 1)))))
        (Aes.roundKey (Aes.keyExpansion k) j)) ∧
      Aes.encrypt k b =
        Aes.addRoundKey (Aes.shiftRows (Aes.subBytes (st 9))) (Aes.roundKey (Aes.keyExpansion k) 10)) ∧
    Function.Bijective (Aes.encrypt k)

/-- R159 with R101, R102: under one Context, two labels with the same session key are the same label; the labels' six
session keys are distinct when the labels are. -/
def Obligations.DistinctLabelsGiveDistinctSessionKeys : Prop :=
  ∀ (b c : Stream) (l m : Byte) (s t u : State), s.arch.mv = true →
    exec (.kdfKey b l) s = .next t → exec (.kdfKey c m) s = .next u →
    t.arch.sk.get b = u.arch.sk.get c → l = m

/-- R171: padding. The zeros are the fewest that fill the last block, the length field is `be64` of the bit length, and
the result is `N` blocks. -/
def Obligations.PaddingFillsWholeBlocks : Prop :=
  ∀ m : List Byte, m.length < 2 ^ 61 → ∃ z : Nat, ∃ len : BitVec 64,
    (m.length + 1 + z + 8) % 64 = 0 ∧ (∀ y < z, (m.length + 1 + y + 8) % 64 ≠ 0) ∧ z ≤ 63 ∧
    len.toNat = 8 * m.length ∧
    Sha1.pad m = m ++ [0x80] ++ List.replicate z 0x00 ++
      [byteAt len 0, byteAt len 1, byteAt len 2, byteAt len 3, byteAt len 4, byteAt len 5, byteAt len 6, byteAt len 7] ∧
    (Sha1.pad m).length = 64 * ((m.length + 9 + z) / 64)

/-- R173: the message schedule of a 64-byte block. -/
def Obligations.MessageScheduleRecurrence : Prop :=
  ∀ block : List Byte, block.length = 64 →
    (Sha1.schedule block).length = 80 ∧
    (∀ t < 16, (Sha1.schedule block)[t]? = some
      (wordOf (block.getD (4 * t) 0) (block.getD (4 * t + 1) 0) (block.getD (4 * t + 2) 0) (block.getD (4 * t + 3) 0))) ∧
    (∀ t, 16 ≤ t → t < 80 → ∃ w3 w8 w14 w16, (Sha1.schedule block)[t - 3]? = some w3 ∧
      (Sha1.schedule block)[t - 8]? = some w8 ∧ (Sha1.schedule block)[t - 14]? = some w14 ∧
      (Sha1.schedule block)[t - 16]? = some w16 ∧
      (Sha1.schedule block)[t]? = some ((w3 ^^^ w8 ^^^ w14 ^^^ w16).rotateLeft 1))

/-- R172, R174, R175: the initial value; the 80 rounds of the compression of a block, with their functions and constants;
the digest; the blocks of a message in order; and that hashing a message that begins with whole blocks goes on from the
chaining value of those blocks: the hash of `m ‖ r` depends on `m` only through it and its length. -/
def Obligations.HashChainsThroughWholeBlocks : Prop :=
  Sha1.initial = { a := 0x67452301, b := 0xEFCDAB89, c := 0x98BADCFE, d := 0x10325476, e := 0xC3D2E1F0 } ∧
  (∀ (h : Sha1.Chain) (block : List Byte), block.length = 64 → ∃ v : Nat → Sha1.Chain,
    v 0 = h ∧
    (∀ t < 80, ∃ w f k : Word, (Sha1.schedule block)[t]? = some w ∧
      (t < 20 → f = ((v t).b &&& (v t).c) ||| (~~~(v t).b &&& (v t).d) ∧ k = 0x5A827999) ∧
      (20 ≤ t → t < 40 → f = (v t).b ^^^ (v t).c ^^^ (v t).d ∧ k = 0x6ED9EBA1) ∧
      (40 ≤ t → t < 60 →
        f = ((v t).b &&& (v t).c) ||| ((v t).b &&& (v t).d) ||| ((v t).c &&& (v t).d) ∧ k = 0x8F1BBCDC) ∧
      (60 ≤ t → f = (v t).b ^^^ (v t).c ^^^ (v t).d ∧ k = 0xCA62C1D6) ∧
      v (t + 1) = {
        a := (v t).a.rotateLeft 5 + f + (v t).e + k + w
        b := (v t).a
        c := (v t).b.rotateLeft 30
        d := (v t).c
        e := (v t).d }) ∧
    Sha1.compress h block = {
      a := h.a + (v 80).a
      b := h.b + (v 80).b
      c := h.c + (v 80).c
      d := h.d + (v 80).d
      e := h.e + (v 80).e }) ∧
  (∀ h : Sha1.Chain, h.digest = h.a ++ h.b ++ h.c ++ h.d ++ h.e) ∧
  (∀ (n : Nat) (m : List Byte), m.length = 64 * n → (Sha1.blocks n m).length = n ∧
    ∀ j < n, (Sha1.blocks n m)[j]? = some ((m.drop (64 * j)).take 64)) ∧
  (∀ m : List Byte,
    Sha1.sha1 m = ((Sha1.blocks ((Sha1.pad m).length / 64) (Sha1.pad m)).foldl Sha1.compress Sha1.initial).digest) ∧
  (∀ (n : Nat) (m r : List Byte), m.length = 64 * n →
    Sha1.sha1 (m ++ r) =
      ((Sha1.blocks ((Sha1.pad (m ++ r)).length / 64 - n) ((Sha1.pad (m ++ r)).drop m.length)).foldl Sha1.compress
        ((Sha1.blocks n m).foldl Sha1.compress Sha1.initial)).digest)

/-- R176, R130, R80: HMAC-SHA1 for every key of at most 64 bytes; the key of a slot is 20 bytes; the tag is the
digest's ten left-most bytes. -/
def Obligations.TagIsTheTruncatedHmacConstruction : Prop :=
  (∀ key m k0 : List Byte, key.length ≤ 64 → k0 = key ++ List.replicate (64 - key.length) 0x00 →
    k0.length = 64 ∧
    Sha1.hmac key m = Sha1.sha1 (k0.map (· ^^^ 0x5C) ++ bytesOf (Sha1.sha1 (k0.map (· ^^^ 0x36) ++ m)))) ∧
  (∀ (k : Bytes20) (m : List Byte), (bytesOf k).length = 20 ∧ (∀ i < 20, (bytesOf k)[i]? = some (byteAt k i)) ∧
    ∀ i < 10, byteAt (computeTag k m) i = byteAt (Sha1.hmac (bytesOf k) m) i)

/-! ### Errors (60_exceptions.md) -/

/-- R190: which command raises which code, exactly when; no command writes `0x03` or a code above `0x06`. -/
def Obligations.ErrorCodesExactlyWhen : Prop :=
  (∀ s t : State, exec .load s = .next t →
    (t.arch.err = 0x01 ↔ s.arch.klen ≠ 16) ∧ (t.arch.err = 0x02 ↔ s.arch.klen = 16 ∧ s.arch.slen ≠ 14)) ∧
  (∀ (i : Instr) (b : Stream) (l : Byte) (s t : State), i ∈ [.kdfKey b l, .kdfSalt b l, .kdfAuth b l] →
    exec i s = .next t → (t.arch.err = 0x05 ↔ s.arch.mv = false)) ∧
  (∀ (b : Stream) (s t : State), exec (.ctr b) s = .next t → (t.arch.err = 0x05 ↔ s.arch.ssv.get b = false)) ∧
  (∀ (i : Instr) (b : Stream) (s t : State), i ∈ [.tag b, .verify b] → exec i s = .next t →
    (t.arch.err = 0x05 ↔ s.arch.sav.get b = false) ∧
    (t.arch.err = 0x04 ↔ s.arch.sav.get b = true ∧ s.cfg.msgMax < s.arch.msglen.toNat)) ∧
  (∀ (i : Instr) (s t : State), exec i s = .next t →
    (t.arch.err = 0x01 ∨ t.arch.err = 0x02 → i = .load) ∧
    (t.arch.err = 0x04 → ∃ b, i = .tag b ∨ i = .verify b) ∧
    (t.arch.err = 0x05 → i ≠ .nop ∧ i ≠ .load ∧ i ≠ .clear) ∧
    t.arch.err ≠ 0x03 ∧ t.arch.err ≠ 0x06 ∧ t.arch.err.toNat < 0x07) ∧
  (∀ s w rest, s.pending = commandEvent w :: rest →
    ∀ t, step s = .next t → (t.arch.err = 0x06 ↔ ∃ e, decodeWord w = .error e))

/-- R193: what an erring command writes besides `ERR`, which takes the code of a named error: its own result zeroed and
invalidated for `ctr`, `tag` and `verify`, nothing for every other, an illegal word among them. -/
def Obligations.ErringCommandsWriteOnlyTheTable : Prop :=
  (∀ s, execIllegal s = .next { s with arch := { s.arch with err := ErrorKind.illegalCommand.code } }) ∧
  ∀ (i : Instr) (s t : State), exec i s = .next t → t.arch.err ≠ 0x00 →
    (∃ e : ErrorKind, t.arch.err = e.code) ∧
    match i with
    | .nop => False
    | .clear => False
    | .load => t = { s with arch := { s.arch with err := t.arch.err } }
    | .kdfKey _ _ => t = { s with arch := { s.arch with err := t.arch.err } }
    | .kdfSalt _ _ => t = { s with arch := { s.arch with err := t.arch.err } }
    | .kdfAuth _ _ => t = { s with arch := { s.arch with err := t.arch.err } }
    | .ctr _ => t = { s with arch := { s.arch with ctr := 0, ctrv := false, err := t.arch.err } }
    | .tag _ => t = { s with arch := { s.arch with tag := 0, tagv := false, err := t.arch.err } }
    | .verify _ => t = { s with arch := { s.arch with matched := false, matchv := false, err := t.arch.err } }

/-- R194: an error does not block, nest or stick: what a command does, its outcome included, does not depend on the
code an earlier command left; and no port transaction but a command write changes `ERR`. -/
def Obligations.ErrIsOverwrittenAndNeverBlocks : Prop :=
  (∀ i s e, exec i { s with arch := { s.arch with err := e } } = exec i s) ∧
  (∀ s e, execIllegal { s with arch := { s.arch with err := e } } = execIllegal s) ∧
  (∀ s x rest t, s.pending = .port x :: rest → commandWord (.port x) = none → step s = .next t →
    t.arch.err = s.arch.err)

/-! ### The port (20_memory.md) -/

/-- R52: a transaction is answered `NAK` exactly in its six cases and `ACK` otherwise, a command write always `ACK`; a
`NAK`ed transaction changes nothing of the core (R51). That case 5 also covers a write to `CMD` of another width than 32
bits, where R52's last paragraph says "always answered `ACK`", is the model's reading (notes/assumptions/11.md). -/
def Obligations.NakExactlyInTheSixCases : Prop :=
  ∀ s x rest t, s.pending = .port x :: rest → step s = .next t →
    (nakCase s x → t = { s with pending := rest, answers := .nak :: s.answers }) ∧
    (¬ nakCase s x → t.pending = rest ∧ ∃ d, t.answers = .ack d :: s.answers) ∧
    ((commandWord (.port x)).isSome → ¬ nakCase s x)

/-- R51, R57: the host reads back what it wrote: a write to a read-write register is taken whole, a read of it returns
that value, and no other register and no byte of `MSG` changes. -/
def Obligations.RegisterReadsBackWhatWasWritten : Prop :=
  ∀ (r : RegName) (v : PortValue) (a : Arch), r.access = .readWrite → v.width = r.width →
    ∃ a', writeReg r v a = some a' ∧ readReg r a' = some v ∧
      (∀ q, q ≠ r → readReg q a' = readReg q a) ∧ (∀ off, a'.msg.read off = a.msg.read off) ∧
      ∀ s rest, s.arch = a → s.pending = .port (.regWrite r.id v) :: rest →
        step s = .next { s with pending := rest, arch := a', answers := .ack none :: s.answers }

/-- R51, R63: a `RegRead` of a register that is readable (one without a valid flag, or whose flag is 1) is answered `ACK`
with the value the register holds. R55: reads are free of side effects, and two reads with nothing between them return
the same answer. -/
def Obligations.ReadsHaveNoSideEffect : Prop :=
  (∀ (s : State) (rest : List HostEvent) (id : BitVec 8) (readable : Bool) (v : PortValue),
    (id, readable, v) ∈ ([
      (0x01, true, ⟨8, s.arch.err⟩), (0x02, true, ⟨16, s.arch.flags⟩),
      (0x10, true, ⟨256, s.arch.kin⟩), (0x11, true, ⟨8, s.arch.klen⟩),
      (0x12, true, ⟨256, s.arch.sin⟩), (0x13, true, ⟨8, s.arch.slen⟩),
      (0x14, s.arch.mv, ⟨128, s.arch.mk⟩), (0x15, s.arch.mv, ⟨112, s.arch.ms⟩)] ++ [
      (0x20, s.arch.skv.media, ⟨128, s.arch.sk.media⟩), (0x21, s.arch.ssv.media, ⟨112, s.arch.ss.media⟩),
      (0x22, s.arch.sav.media, ⟨160, s.arch.sa.media⟩), (0x24, s.arch.skv.control, ⟨128, s.arch.sk.control⟩),
      (0x25, s.arch.ssv.control, ⟨112, s.arch.ss.control⟩), (0x26, s.arch.sav.control, ⟨160, s.arch.sa.control⟩)] ++ [
      (0x30, true, ⟨16, s.arch.seq⟩), (0x31, true, ⟨32, s.arch.roc⟩), (0x32, true, ⟨32, s.arch.ssrc⟩),
      (0x33, s.arch.ctrv, ⟨128, s.arch.ctr⟩), (0x40, true, ⟨32, s.arch.msglen⟩),
      (0x41, true, ⟨80, s.arch.claim⟩), (0x42, s.arch.tagv, ⟨80, s.arch.tag⟩)] :
        List (BitVec 8 × Bool × PortValue)) →
    readable = true → s.pending = .port (.regRead id) :: rest →
    step s = .next { s with pending := rest, answers := .ack (some v) :: s.answers }) ∧
  ∀ s x rest t, (∃ id, x = .regRead id) ∨ (∃ off, x = .msgRead off) →
    s.pending = .port x :: .port x :: rest → step s = .next t →
    t.arch = s.arch ∧ t.cfg = s.cfg ∧
    ∃ y, t.answers = y :: s.answers ∧ step t = .next { t with pending := rest, answers := y :: y :: s.answers }

/-- R55: the per-packet and KDF commands, and `nop`, repeated with unchanged operands write the same values again. -/
def Obligations.RepeatedCommandsChangeNothing : Prop :=
  ∀ (i : Instr) (s t : State), i ≠ .load → i ≠ .clear → exec i s = .next t → exec i t = .next t

/-- R51, R56: `MsgWrite(off, b)` below `MSG_MAX` stores that byte and no other, changes no register, and a `MsgRead` of
any such offset returns the byte there. The canonical form of `MSG`, premise and conclusion, is the model's choice
(notes/assumptions/14.md). -/
def Obligations.MessageWritesStoreOneByte : Prop :=
  (∀ s off b rest, s.pending = .port (.msgWrite off b) :: rest → off.toNat < s.cfg.msgMax → s.arch.msg.wf →
    ∃ m : Memory, m.wf ∧ m.read off.toNat = b ∧ (∀ a, a ≠ off.toNat → m.read a = s.arch.msg.read a) ∧
      step s = .next { s with
        pending := rest
        arch := { s.arch with msg := m }
        answers := .ack none :: s.answers }) ∧
  (∀ s off rest, s.pending = .port (.msgRead off) :: rest → off.toNat < s.cfg.msgMax →
    step s = .next { s with
      pending := rest
      answers := .ack (some ⟨8, s.arch.msg.read off.toNat⟩) :: s.answers })

/-- The canonical form is canonical: two message buffers in it that read alike everywhere are the same data. -/
def Obligations.CanonicalBuffersAreEqualWhenTheyReadAlike : Prop :=
  ∀ m n : Memory, m.wf → n.wf → (∀ off, m.read off = n.read off) → m = n

/-! ### The flags (10_state.md) -/

/-- R23: the view `FLAGS`, and what sets and clears each flag. -/
def Obligations.FlagsViewAndItsWriters : Prop :=
  (∀ a : Arch, a.flags.getLsbD 0 = a.mv ∧
    a.flags.getLsbD 1 = a.skv.media ∧ a.flags.getLsbD 2 = a.ssv.media ∧ a.flags.getLsbD 3 = a.sav.media ∧
    a.flags.getLsbD 4 = a.skv.control ∧ a.flags.getLsbD 5 = a.ssv.control ∧ a.flags.getLsbD 6 = a.sav.control ∧
    a.flags.getLsbD 7 = a.ctrv ∧ a.flags.getLsbD 8 = a.tagv ∧ a.flags.getLsbD 9 = a.matchv ∧
    a.flags.getLsbD 10 = a.matched ∧ (∀ i, 11 ≤ i → a.flags.getLsbD i = false) ∧
    readReg .flags a = some ⟨16, a.flags⟩) ∧
  (∀ v a, writeReg .flags v a = none) ∧ Arch.reset.flags = 0x0000 ∧
  (∀ (i : Instr) (s t : State) (c : Stream), exec i s = .next t →
    t.arch.mv = (match i with
      | .load => s.arch.mv || decide s.arch.lengthsRight
      | .clear => false
      | _ => s.arch.mv) ∧
    t.arch.skv.get c = (match i with
      | .load => s.arch.skv.get c && !decide s.arch.lengthsRight
      | .clear => false
      | .kdfKey b _ => s.arch.skv.get c || (decide (c = b) && s.arch.mv)
      | _ => s.arch.skv.get c) ∧
    t.arch.ssv.get c = (match i with
      | .load => s.arch.ssv.get c && !decide s.arch.lengthsRight
      | .clear => false
      | .kdfSalt b _ => s.arch.ssv.get c || (decide (c = b) && s.arch.mv)
      | _ => s.arch.ssv.get c) ∧
    t.arch.sav.get c = (match i with
      | .load => s.arch.sav.get c && !decide s.arch.lengthsRight
      | .clear => false
      | .kdfAuth b _ => s.arch.sav.get c || (decide (c = b) && s.arch.mv)
      | _ => s.arch.sav.get c) ∧
    t.arch.ctrv = (match i with
      | .load => s.arch.ctrv && !decide s.arch.lengthsRight
      | .clear => false
      | .ctr _ => decide (t.arch.err = 0x00)
      | _ => s.arch.ctrv) ∧
    t.arch.tagv = (match i with
      | .load => s.arch.tagv && !decide s.arch.lengthsRight
      | .clear => false
      | .tag _ => decide (t.arch.err = 0x00)
      | _ => s.arch.tagv) ∧
    t.arch.matchv = (match i with
      | .load => s.arch.matchv && !decide s.arch.lengthsRight
      | .clear => false
      | .verify _ => decide (t.arch.err = 0x00)
      | _ => s.arch.matchv) ∧
    t.arch.matched = (match i with
      | .load => s.arch.matched && !decide s.arch.lengthsRight
      | .clear => false
      | .verify b => decide (t.arch.err = 0x00) && decide (s.arch.expectedTag b = s.arch.claim)
      | _ => s.arch.matched)) ∧
  (∀ s : State, ∃ t, execIllegal s = .next t ∧ t.arch.flags = s.arch.flags) ∧
  (∀ s x rest t, s.pending = .port x :: rest → commandWord (.port x) = none → step s = .next t →
    t.arch.flags = s.arch.flags) ∧
  (∀ s rest, s.pending = .reset :: rest → ∃ t, step s = .next t ∧ t.arch.flags = 0x0000)

/-! ### Whole-machine rules -/

/-- 10_state.md R25: the master secrets and `MV` change only in a step that runs a successful `load` or a `clear`, or
is a reset: no port write, no other command and no failed `load` touches them. -/
def Obligations.MasterSecretsChangeOnlyByLoadClearReset : Prop :=
  ∀ s t : State, step s = .next t →
    (t.arch.mv = s.arch.mv ∧ t.arch.mk = s.arch.mk ∧ t.arch.ms = s.arch.ms) ∨
    ∃ e rest, s.pending = e :: rest ∧
      (e = .reset ∨ ∃ w, commandWord e = some w ∧
        (decodeWord w = .ok .clear ∨ (decodeWord w = .ok .load ∧ s.arch.lengthsRight)))

/-- 10_state.md R26: a slot and its flag change only in a step that runs the derivation of its own kind and stream, a
successful `load` or a `clear`, or is a reset; the host cannot write session material. -/
def Obligations.SlotsChangeOnlyByTheirDerivation : Prop :=
  ∀ (b : Stream) (s t : State), step s = .next t →
    let ended := ∃ e rest, s.pending = e :: rest ∧
      (e = .reset ∨ ∃ w, commandWord e = some w ∧
        (decodeWord w = .ok .clear ∨ (decodeWord w = .ok .load ∧ s.arch.lengthsRight)))
    let ran := fun k : Byte → Instr =>
      ∃ e rest w l, s.pending = e :: rest ∧ commandWord e = some w ∧ decodeWord w = .ok (k l)
    (SameSk b s t ∨ ended ∨ ran (.kdfKey b)) ∧
    (SameSs b s t ∨ ended ∨ ran (.kdfSalt b)) ∧
    (SameSa b s t ∨ ended ∨ ran (.kdfAuth b))

/-- 70_reset_and_hazards.md R215: results are snapshots. No port transaction but a command write, and no derivation,
changes `CTR`, `TAG`, `MATCH` or their flags. -/
def Obligations.ResultsAreSnapshots : Prop :=
  (∀ s x rest t, s.pending = .port x :: rest → commandWord (.port x) = none → step s = .next t →
    SameCtr s t ∧ SameTag s t ∧ SameMatch s t) ∧
  (∀ (i : Instr) (b : Stream) (l : Byte) (s t : State), i ∈ [.kdfKey b l, .kdfSalt b l, .kdfAuth b l] →
    exec i s = .next t → SameCtr s t ∧ SameTag s t ∧ SameMatch s t)

/-- 10_state.md R26, 30_encoding.md R71: the streams are separate. Two cores that differ only in the slots and flags of
one stream run every command of the other stream alike: they end differing only there. -/
def Obligations.StreamsDoNotInfluenceEachOther : Prop :=
  ∀ (b c : Stream) (i : Instr) (l : Byte) (s : State) (k : Bytes16) (n : Bytes14) (x : Bytes20) (f g h : Bool)
    (t : State), c ≠ b → i ∈ [.kdfKey b l, .kdfSalt b l, .kdfAuth b l, .ctr b, .tag b, .verify b] →
    exec i s = .next t →
    exec i { s with arch := ((s.arch.setSk c k f).setSs c n g).setSa c x h } =
      .next { t with arch := ((t.arch.setSk c k f).setSs c n g).setSa c x h }

/-- 10_state.md R34: every step keeps the invariant of the core (a cleared flag means a zero register, a valid slot
holds a derived value, `ERR` holds a written code) and the canonical form of `MSG`. -/
def Obligations.EveryStepKeepsTheStateRules : Prop :=
  ∀ s t : State, s.Inv → step s = .next t → t.Inv

/-- 10_state.md R34, R38: the invariant holds after reset, for every `MSG_MAX` of 00_scope.md R5. -/
def Obligations.ResetSatisfiesTheStateRules : Prop :=
  ∀ c : Config, c.Legal → (State.resetWith c).Inv

/-! ### Reset (70_reset_and_hazards.md) -/

/-- 10_state.md R38: every component is zero after reset, hence `FLAGS`. -/
def Obligations.ResetZeroesEveryComponent : Prop :=
  ∀ (c : Config) (a : Arch), a = (State.resetWith c).arch →
    a.err = 0x00 ∧ a.mv = false ∧ a.mk = 0 ∧ a.ms = 0 ∧ a.kin = 0 ∧ a.klen = 0 ∧ a.sin = 0 ∧ a.slen = 0 ∧
    (∀ b, a.sk.get b = 0 ∧ a.ss.get b = 0 ∧ a.sa.get b = 0 ∧
      a.skv.get b = false ∧ a.ssv.get b = false ∧ a.sav.get b = false) ∧
    a.seq = 0 ∧ a.roc = 0 ∧ a.ssrc = 0 ∧ a.ctr = 0 ∧ a.ctrv = false ∧ a.msglen = 0 ∧ (∀ off, a.msg.read off = 0x00) ∧
    a.claim = 0 ∧ a.tag = 0 ∧ a.tagv = false ∧ a.matched = false ∧ a.matchv = false ∧ a.flags = 0x0000

/-- R210: a reset is one atomic step that puts every component to its reset value, exactly as `clear` does. That what
the host does next and `MSG_MAX` survive it is the model's choice (notes/assumptions/9.md). -/
def Obligations.ResetEventEqualsClear : Prop :=
  ∀ (s : State) (rest : List HostEvent), s.pending = .reset :: rest →
    step s = .next { s with pending := rest, arch := Arch.reset } ∧
    exec .clear { s with pending := rest } = step s

/-- R211: what the commands and the reads do in the reset state, an inference the spec marks as its own (derived from R38
and the command rules). -/
def Obligations.CommandsAndReadsAfterReset : Prop :=
  ∀ (c : Config) (b : Stream) (l : Byte),
    (∀ i ∈ [Instr.kdfKey b l, .kdfSalt b l, .kdfAuth b l, .ctr b, .tag b, .verify b],
      ∃ t, exec i (.resetWith c) = .next t ∧ t.arch.err = ErrorKind.notLoaded.code) ∧
    (∃ t, exec .load (.resetWith c) = .next t ∧ t.arch.err = ErrorKind.invalidKeyLength.code) ∧
    (∀ r ∈ [RegName.mk, .ms, .sk0, .ss0, .sa0, .sk1, .ss1, .sa1, .ctr, .tag],
      readReg r (State.resetWith c).arch = none) ∧
    (State.resetWith c).arch = Arch.reset ∧ Arch.reset.err = 0x00 ∧ Arch.reset.flags = 0x0000
end

