-- ==== Sys2Proof/Laws/Memory.lean ====
section
/-! SUPPORT. The laws of the message buffer: read after write, frame, canonical form. -/

namespace Sys2Proof.Machine.Memory

@[simp] theorem read_nil (off : Nat) : read [] off = unlistedByte := rfl

theorem read_cons (c : Host.Cell) (m : Memory) (off : Nat) :
    read (c :: m) off = if c.1 = off then c.2 else read m off := rfl

@[simp] theorem wf_nil : wf [] := by simp [wf]

theorem wf_cons {c : Host.Cell} {m : Memory} :
    wf (c :: m) ↔ (∀ x ∈ m, c.1 < x.1) ∧ c.2 ≠ unlistedByte ∧ wf m := by
  simp only [wf, List.pairwise_cons, List.forall_mem_cons]
  tauto

/-- An offset below every listed one reads as unlisted. -/
theorem read_of_lt {m : Memory} {off : Nat} (h : ∀ x ∈ m, off < x.1) : read m off = unlistedByte := by
  induction m with
  | nil => rfl
  | cons c m ih =>
    have hc := h c (by simp)
    rw [read_cons, if_neg (by omega)]
    exact ih fun x hx => h x (by simp [hx])

theorem mem_cell {off : Nat} {b : Byte} {x : Host.Cell} (h : x ∈ cell off b) : x = (off, b) ∧ b ≠ unlistedByte := by
  unfold cell at h
  split at h <;> simp_all

/-- What a write can leave in the list: old cells, and the new one. -/
theorem mem_write {m : Memory} {off : Nat} {b : Byte} {x : Host.Cell} (h : x ∈ write m off b) :
    x ∈ m ∨ (x = (off, b) ∧ b ≠ unlistedByte) := by
  induction m with
  | nil => exact .inr (mem_cell h)
  | cons c m ih =>
    unfold write at h
    split at h
    · rcases List.mem_append.mp h with h | h
      · exact .inr (mem_cell h)
      · exact .inl h
    · split at h
      · rcases List.mem_append.mp h with h | h
        · exact .inr (mem_cell h)
        · exact .inl (List.mem_cons_of_mem _ h)
      · rcases List.mem_cons.mp h with h | h
        · exact .inl (by simp [h])
        · rcases ih h with h | h
          · exact .inl (List.mem_cons_of_mem _ h)
          · exact .inr h

theorem cell_append_wf {m : Memory} {off : Nat} {b : Byte} (hm : wf m) (h : ∀ x ∈ m, off < x.1) :
    wf (cell off b ++ m) := by
  unfold cell
  split
  · exact hm
  · exact wf_cons.mpr ⟨h, by assumption, hm⟩

/-- A write keeps the canonical form. -/
theorem write_wf {m : Memory} {off : Nat} {b : Byte} (hm : wf m) : wf (write m off b) := by
  induction m with
  | nil => simpa [write] using cell_append_wf (b := b) wf_nil (off := off) (by simp)
  | cons c m ih =>
    obtain ⟨hlt, hne, hwf⟩ := wf_cons.mp hm
    unfold write
    split
    · rename_i h
      refine cell_append_wf hm fun x hx => ?_
      rcases List.mem_cons.mp hx with rfl | hx
      · exact h
      · exact lt_trans h (hlt x hx)
    · split
      · rename_i h
        exact cell_append_wf hwf fun x hx => h ▸ hlt x hx
      · rename_i h1 h2
        refine wf_cons.mpr ⟨fun x hx => ?_, hne, ih hwf⟩
        rcases mem_write hx with hx | ⟨rfl, -⟩
        · exact hlt x hx
        · show c.1 < off
          omega

/-- A write inside a bound lists nothing outside it. -/
theorem write_inside {m : Memory} {off n : Nat} {b : Byte} (hm : ∀ c ∈ m, c.1 < n) (ho : off < n) :
    ∀ c ∈ write m off b, c.1 < n := by
  intro c hc
  rcases mem_write hc with hc | ⟨rfl, -⟩
  · exact hm c hc
  · exact ho

theorem read_cell_append_same {m : Memory} {off : Nat} {b : Byte} (h : ∀ x ∈ m, off < x.1) :
    read (cell off b ++ m) off = b := by
  unfold cell
  split
  · rw [List.nil_append, read_of_lt h]
    exact Eq.symm ‹_›
  · simp [read_cons]

theorem read_cell_append_other {m : Memory} {off a : Nat} {b : Byte} (h : a ≠ off) :
    read (cell off b ++ m) a = read m a := by
  unfold cell
  split
  · rfl
  · simp [read_cons, Ne.symm h]

/-- A read after a write to the same offset gives the byte written. -/
theorem read_write_same {m : Memory} (hm : wf m) (off : Nat) (b : Byte) : read (write m off b) off = b := by
  induction m with
  | nil => simpa [write] using read_cell_append_same (m := []) (off := off) (b := b) (by simp)
  | cons c m ih =>
    obtain ⟨hlt, -, hwf⟩ := wf_cons.mp hm
    unfold write
    split
    · rename_i h
      refine read_cell_append_same fun x hx => ?_
      rcases List.mem_cons.mp hx with rfl | hx
      · exact h
      · exact lt_trans h (hlt x hx)
    · split
      · rename_i h
        exact read_cell_append_same fun x hx => h ▸ hlt x hx
      · rename_i h1 h2
        rw [read_cons, if_neg (Ne.symm h2), ih hwf]

/-- A write leaves every other offset alone. -/
theorem read_write_other (m : Memory) {off a : Nat} (b : Byte) (h : a ≠ off) :
    read (write m off b) a = read m a := by
  induction m with
  | nil => simpa [write] using read_cell_append_other (m := []) (b := b) h
  | cons c m ih =>
    unfold write
    split
    · exact read_cell_append_other h
    · split
      · rename_i h2
        rw [read_cell_append_other h, read_cons, if_neg]
        exact fun hc => h (hc ▸ h2.symm)
      · rw [read_cons, read_cons, ih]

@[simp] theorem readBytes_length (m : Memory) (addr n : Nat) : (readBytes m addr n).length = n := by
  simp [readBytes]

/-- Two buffers that agree on the bytes read give the same byte string. -/
theorem readBytes_congr {m m' : Memory} {addr n : Nat} (h : ∀ k < n, m.read (addr + k) = m'.read (addr + k)) :
    readBytes m addr n = readBytes m' addr n := by
  unfold readBytes
  exact List.map_congr_left fun k hk => h k (List.mem_range.mp hk)

end Sys2Proof.Machine.Memory
end

