-- ==== Sys2Proof/Laws/State.lean ====
section
/-! SUPPORT. One lemma per field per update of the state, each true by unfolding the update once. -/

namespace Sys2Proof.Machine

variable {α : Type}

@[simp] theorem Bank.get_set_same (r : Bank α) (b : Stream) (v : α) : (r.set b v).get b = v := by cases b <;> rfl
@[simp] theorem Bank.get_set_media_control (r : Bank α) (v : α) : (r.set .media v).get .control = r.get .control := (rfl)
@[simp] theorem Bank.get_set_control_media (r : Bank α) (v : α) : (r.set .control v).get .media = r.get .media := (rfl)
theorem Bank.get_set_other (r : Bank α) {b c : Stream} (v : α) (h : c ≠ b) : (r.set b v).get c = r.get c := by
  cases b <;> cases c <;> first | rfl | exact absurd rfl h
theorem Bank.get_set (r : Bank α) (b c : Stream) (v : α) : (r.set b v).get c = if c = b then v else r.get c := by
  cases b <;> cases c <;> rfl
@[simp] theorem Bank.set_set (r : Bank α) (b : Stream) (v w : α) : (r.set b v).set b w = r.set b w := by cases b <;> rfl
theorem Bank.ext_get {r q : Bank α} (h : ∀ b, r.get b = q.get b) : r = q := by
  cases r; cases q; simpa [Bank.get] using And.intro (h .media) (h .control)

@[simp] theorem Arch.setErr_err (e : BitVec 8) (a : Arch) : (a.setErr e).err = e := (rfl)
@[simp] theorem Arch.setErr_mv (e : BitVec 8) (a : Arch) : (a.setErr e).mv = a.mv := (rfl)
@[simp] theorem Arch.setErr_mk (e : BitVec 8) (a : Arch) : (a.setErr e).mk = a.mk := (rfl)
@[simp] theorem Arch.setErr_ms (e : BitVec 8) (a : Arch) : (a.setErr e).ms = a.ms := (rfl)
@[simp] theorem Arch.setErr_kin (e : BitVec 8) (a : Arch) : (a.setErr e).kin = a.kin := (rfl)
@[simp] theorem Arch.setErr_klen (e : BitVec 8) (a : Arch) : (a.setErr e).klen = a.klen := (rfl)
@[simp] theorem Arch.setErr_sin (e : BitVec 8) (a : Arch) : (a.setErr e).sin = a.sin := (rfl)
@[simp] theorem Arch.setErr_slen (e : BitVec 8) (a : Arch) : (a.setErr e).slen = a.slen := (rfl)
@[simp] theorem Arch.setErr_sk (e : BitVec 8) (a : Arch) : (a.setErr e).sk = a.sk := (rfl)
@[simp] theorem Arch.setErr_ss (e : BitVec 8) (a : Arch) : (a.setErr e).ss = a.ss := (rfl)
@[simp] theorem Arch.setErr_sa (e : BitVec 8) (a : Arch) : (a.setErr e).sa = a.sa := (rfl)
@[simp] theorem Arch.setErr_skv (e : BitVec 8) (a : Arch) : (a.setErr e).skv = a.skv := (rfl)
@[simp] theorem Arch.setErr_ssv (e : BitVec 8) (a : Arch) : (a.setErr e).ssv = a.ssv := (rfl)
@[simp] theorem Arch.setErr_sav (e : BitVec 8) (a : Arch) : (a.setErr e).sav = a.sav := (rfl)
@[simp] theorem Arch.setErr_seq (e : BitVec 8) (a : Arch) : (a.setErr e).seq = a.seq := (rfl)
@[simp] theorem Arch.setErr_roc (e : BitVec 8) (a : Arch) : (a.setErr e).roc = a.roc := (rfl)
@[simp] theorem Arch.setErr_ssrc (e : BitVec 8) (a : Arch) : (a.setErr e).ssrc = a.ssrc := (rfl)
@[simp] theorem Arch.setErr_ctr (e : BitVec 8) (a : Arch) : (a.setErr e).ctr = a.ctr := (rfl)
@[simp] theorem Arch.setErr_ctrv (e : BitVec 8) (a : Arch) : (a.setErr e).ctrv = a.ctrv := (rfl)
@[simp] theorem Arch.setErr_msglen (e : BitVec 8) (a : Arch) : (a.setErr e).msglen = a.msglen := (rfl)
@[simp] theorem Arch.setErr_msg (e : BitVec 8) (a : Arch) : (a.setErr e).msg = a.msg := (rfl)
@[simp] theorem Arch.setErr_claim (e : BitVec 8) (a : Arch) : (a.setErr e).claim = a.claim := (rfl)
@[simp] theorem Arch.setErr_tag (e : BitVec 8) (a : Arch) : (a.setErr e).tag = a.tag := (rfl)
@[simp] theorem Arch.setErr_tagv (e : BitVec 8) (a : Arch) : (a.setErr e).tagv = a.tagv := (rfl)
@[simp] theorem Arch.setErr_matched (e : BitVec 8) (a : Arch) : (a.setErr e).matched = a.matched := (rfl)
@[simp] theorem Arch.setErr_matchv (e : BitVec 8) (a : Arch) : (a.setErr e).matchv = a.matchv := (rfl)

@[simp] theorem Arch.setMaster_err (k : Bytes16) (m : Bytes14) (a : Arch) : (a.setMaster k m).err = a.err := (rfl)
@[simp] theorem Arch.setMaster_mv (k : Bytes16) (m : Bytes14) (a : Arch) : (a.setMaster k m).mv = true := (rfl)
@[simp] theorem Arch.setMaster_mk (k : Bytes16) (m : Bytes14) (a : Arch) : (a.setMaster k m).mk = k := (rfl)
@[simp] theorem Arch.setMaster_ms (k : Bytes16) (m : Bytes14) (a : Arch) : (a.setMaster k m).ms = m := (rfl)
@[simp] theorem Arch.setMaster_kin (k : Bytes16) (m : Bytes14) (a : Arch) : (a.setMaster k m).kin = a.kin := (rfl)
@[simp] theorem Arch.setMaster_klen (k : Bytes16) (m : Bytes14) (a : Arch) : (a.setMaster k m).klen = a.klen := (rfl)
@[simp] theorem Arch.setMaster_sin (k : Bytes16) (m : Bytes14) (a : Arch) : (a.setMaster k m).sin = a.sin := (rfl)
@[simp] theorem Arch.setMaster_slen (k : Bytes16) (m : Bytes14) (a : Arch) : (a.setMaster k m).slen = a.slen := (rfl)
@[simp] theorem Arch.setMaster_sk (k : Bytes16) (m : Bytes14) (a : Arch) : (a.setMaster k m).sk = a.sk := (rfl)
@[simp] theorem Arch.setMaster_ss (k : Bytes16) (m : Bytes14) (a : Arch) : (a.setMaster k m).ss = a.ss := (rfl)
@[simp] theorem Arch.setMaster_sa (k : Bytes16) (m : Bytes14) (a : Arch) : (a.setMaster k m).sa = a.sa := (rfl)
@[simp] theorem Arch.setMaster_skv (k : Bytes16) (m : Bytes14) (a : Arch) : (a.setMaster k m).skv = a.skv := (rfl)
@[simp] theorem Arch.setMaster_ssv (k : Bytes16) (m : Bytes14) (a : Arch) : (a.setMaster k m).ssv = a.ssv := (rfl)
@[simp] theorem Arch.setMaster_sav (k : Bytes16) (m : Bytes14) (a : Arch) : (a.setMaster k m).sav = a.sav := (rfl)
@[simp] theorem Arch.setMaster_seq (k : Bytes16) (m : Bytes14) (a : Arch) : (a.setMaster k m).seq = a.seq := (rfl)
@[simp] theorem Arch.setMaster_roc (k : Bytes16) (m : Bytes14) (a : Arch) : (a.setMaster k m).roc = a.roc := (rfl)
@[simp] theorem Arch.setMaster_ssrc (k : Bytes16) (m : Bytes14) (a : Arch) : (a.setMaster k m).ssrc = a.ssrc := (rfl)
@[simp] theorem Arch.setMaster_ctr (k : Bytes16) (m : Bytes14) (a : Arch) : (a.setMaster k m).ctr = a.ctr := (rfl)
@[simp] theorem Arch.setMaster_ctrv (k : Bytes16) (m : Bytes14) (a : Arch) : (a.setMaster k m).ctrv = a.ctrv := (rfl)
@[simp] theorem Arch.setMaster_msglen (k : Bytes16) (m : Bytes14) (a : Arch) : (a.setMaster k m).msglen = a.msglen := (rfl)
@[simp] theorem Arch.setMaster_msg (k : Bytes16) (m : Bytes14) (a : Arch) : (a.setMaster k m).msg = a.msg := (rfl)
@[simp] theorem Arch.setMaster_claim (k : Bytes16) (m : Bytes14) (a : Arch) : (a.setMaster k m).claim = a.claim := (rfl)
@[simp] theorem Arch.setMaster_tag (k : Bytes16) (m : Bytes14) (a : Arch) : (a.setMaster k m).tag = a.tag := (rfl)
@[simp] theorem Arch.setMaster_tagv (k : Bytes16) (m : Bytes14) (a : Arch) : (a.setMaster k m).tagv = a.tagv := (rfl)
@[simp] theorem Arch.setMaster_matched (k : Bytes16) (m : Bytes14) (a : Arch) : (a.setMaster k m).matched = a.matched := (rfl)
@[simp] theorem Arch.setMaster_matchv (k : Bytes16) (m : Bytes14) (a : Arch) : (a.setMaster k m).matchv = a.matchv := (rfl)

@[simp] theorem Arch.setSk_err (b : Stream) (v : Bytes16) (f : Bool) (a : Arch) : (a.setSk b v f).err = a.err := (rfl)
@[simp] theorem Arch.setSk_mv (b : Stream) (v : Bytes16) (f : Bool) (a : Arch) : (a.setSk b v f).mv = a.mv := (rfl)
@[simp] theorem Arch.setSk_mk (b : Stream) (v : Bytes16) (f : Bool) (a : Arch) : (a.setSk b v f).mk = a.mk := (rfl)
@[simp] theorem Arch.setSk_ms (b : Stream) (v : Bytes16) (f : Bool) (a : Arch) : (a.setSk b v f).ms = a.ms := (rfl)
@[simp] theorem Arch.setSk_kin (b : Stream) (v : Bytes16) (f : Bool) (a : Arch) : (a.setSk b v f).kin = a.kin := (rfl)
@[simp] theorem Arch.setSk_klen (b : Stream) (v : Bytes16) (f : Bool) (a : Arch) : (a.setSk b v f).klen = a.klen := (rfl)
@[simp] theorem Arch.setSk_sin (b : Stream) (v : Bytes16) (f : Bool) (a : Arch) : (a.setSk b v f).sin = a.sin := (rfl)
@[simp] theorem Arch.setSk_slen (b : Stream) (v : Bytes16) (f : Bool) (a : Arch) : (a.setSk b v f).slen = a.slen := (rfl)
@[simp] theorem Arch.setSk_sk (b : Stream) (v : Bytes16) (f : Bool) (a : Arch) : (a.setSk b v f).sk = a.sk.set b v := (rfl)
@[simp] theorem Arch.setSk_ss (b : Stream) (v : Bytes16) (f : Bool) (a : Arch) : (a.setSk b v f).ss = a.ss := (rfl)
@[simp] theorem Arch.setSk_sa (b : Stream) (v : Bytes16) (f : Bool) (a : Arch) : (a.setSk b v f).sa = a.sa := (rfl)
@[simp] theorem Arch.setSk_skv (b : Stream) (v : Bytes16) (f : Bool) (a : Arch) : (a.setSk b v f).skv = a.skv.set b f := (rfl)
@[simp] theorem Arch.setSk_ssv (b : Stream) (v : Bytes16) (f : Bool) (a : Arch) : (a.setSk b v f).ssv = a.ssv := (rfl)
@[simp] theorem Arch.setSk_sav (b : Stream) (v : Bytes16) (f : Bool) (a : Arch) : (a.setSk b v f).sav = a.sav := (rfl)
@[simp] theorem Arch.setSk_seq (b : Stream) (v : Bytes16) (f : Bool) (a : Arch) : (a.setSk b v f).seq = a.seq := (rfl)
@[simp] theorem Arch.setSk_roc (b : Stream) (v : Bytes16) (f : Bool) (a : Arch) : (a.setSk b v f).roc = a.roc := (rfl)
@[simp] theorem Arch.setSk_ssrc (b : Stream) (v : Bytes16) (f : Bool) (a : Arch) : (a.setSk b v f).ssrc = a.ssrc := (rfl)
@[simp] theorem Arch.setSk_ctr (b : Stream) (v : Bytes16) (f : Bool) (a : Arch) : (a.setSk b v f).ctr = a.ctr := (rfl)
@[simp] theorem Arch.setSk_ctrv (b : Stream) (v : Bytes16) (f : Bool) (a : Arch) : (a.setSk b v f).ctrv = a.ctrv := (rfl)
@[simp] theorem Arch.setSk_msglen (b : Stream) (v : Bytes16) (f : Bool) (a : Arch) : (a.setSk b v f).msglen = a.msglen := (rfl)
@[simp] theorem Arch.setSk_msg (b : Stream) (v : Bytes16) (f : Bool) (a : Arch) : (a.setSk b v f).msg = a.msg := (rfl)
@[simp] theorem Arch.setSk_claim (b : Stream) (v : Bytes16) (f : Bool) (a : Arch) : (a.setSk b v f).claim = a.claim := (rfl)
@[simp] theorem Arch.setSk_tag (b : Stream) (v : Bytes16) (f : Bool) (a : Arch) : (a.setSk b v f).tag = a.tag := (rfl)
@[simp] theorem Arch.setSk_tagv (b : Stream) (v : Bytes16) (f : Bool) (a : Arch) : (a.setSk b v f).tagv = a.tagv := (rfl)
@[simp] theorem Arch.setSk_matched (b : Stream) (v : Bytes16) (f : Bool) (a : Arch) : (a.setSk b v f).matched = a.matched := (rfl)
@[simp] theorem Arch.setSk_matchv (b : Stream) (v : Bytes16) (f : Bool) (a : Arch) : (a.setSk b v f).matchv = a.matchv := (rfl)

@[simp] theorem Arch.setSs_err (b : Stream) (v : Bytes14) (f : Bool) (a : Arch) : (a.setSs b v f).err = a.err := (rfl)
@[simp] theorem Arch.setSs_mv (b : Stream) (v : Bytes14) (f : Bool) (a : Arch) : (a.setSs b v f).mv = a.mv := (rfl)
@[simp] theorem Arch.setSs_mk (b : Stream) (v : Bytes14) (f : Bool) (a : Arch) : (a.setSs b v f).mk = a.mk := (rfl)
@[simp] theorem Arch.setSs_ms (b : Stream) (v : Bytes14) (f : Bool) (a : Arch) : (a.setSs b v f).ms = a.ms := (rfl)
@[simp] theorem Arch.setSs_kin (b : Stream) (v : Bytes14) (f : Bool) (a : Arch) : (a.setSs b v f).kin = a.kin := (rfl)
@[simp] theorem Arch.setSs_klen (b : Stream) (v : Bytes14) (f : Bool) (a : Arch) : (a.setSs b v f).klen = a.klen := (rfl)
@[simp] theorem Arch.setSs_sin (b : Stream) (v : Bytes14) (f : Bool) (a : Arch) : (a.setSs b v f).sin = a.sin := (rfl)
@[simp] theorem Arch.setSs_slen (b : Stream) (v : Bytes14) (f : Bool) (a : Arch) : (a.setSs b v f).slen = a.slen := (rfl)
@[simp] theorem Arch.setSs_sk (b : Stream) (v : Bytes14) (f : Bool) (a : Arch) : (a.setSs b v f).sk = a.sk := (rfl)
@[simp] theorem Arch.setSs_ss (b : Stream) (v : Bytes14) (f : Bool) (a : Arch) : (a.setSs b v f).ss = a.ss.set b v := (rfl)
@[simp] theorem Arch.setSs_sa (b : Stream) (v : Bytes14) (f : Bool) (a : Arch) : (a.setSs b v f).sa = a.sa := (rfl)
@[simp] theorem Arch.setSs_skv (b : Stream) (v : Bytes14) (f : Bool) (a : Arch) : (a.setSs b v f).skv = a.skv := (rfl)
@[simp] theorem Arch.setSs_ssv (b : Stream) (v : Bytes14) (f : Bool) (a : Arch) : (a.setSs b v f).ssv = a.ssv.set b f := (rfl)
@[simp] theorem Arch.setSs_sav (b : Stream) (v : Bytes14) (f : Bool) (a : Arch) : (a.setSs b v f).sav = a.sav := (rfl)
@[simp] theorem Arch.setSs_seq (b : Stream) (v : Bytes14) (f : Bool) (a : Arch) : (a.setSs b v f).seq = a.seq := (rfl)
@[simp] theorem Arch.setSs_roc (b : Stream) (v : Bytes14) (f : Bool) (a : Arch) : (a.setSs b v f).roc = a.roc := (rfl)
@[simp] theorem Arch.setSs_ssrc (b : Stream) (v : Bytes14) (f : Bool) (a : Arch) : (a.setSs b v f).ssrc = a.ssrc := (rfl)
@[simp] theorem Arch.setSs_ctr (b : Stream) (v : Bytes14) (f : Bool) (a : Arch) : (a.setSs b v f).ctr = a.ctr := (rfl)
@[simp] theorem Arch.setSs_ctrv (b : Stream) (v : Bytes14) (f : Bool) (a : Arch) : (a.setSs b v f).ctrv = a.ctrv := (rfl)
@[simp] theorem Arch.setSs_msglen (b : Stream) (v : Bytes14) (f : Bool) (a : Arch) : (a.setSs b v f).msglen = a.msglen := (rfl)
@[simp] theorem Arch.setSs_msg (b : Stream) (v : Bytes14) (f : Bool) (a : Arch) : (a.setSs b v f).msg = a.msg := (rfl)
@[simp] theorem Arch.setSs_claim (b : Stream) (v : Bytes14) (f : Bool) (a : Arch) : (a.setSs b v f).claim = a.claim := (rfl)
@[simp] theorem Arch.setSs_tag (b : Stream) (v : Bytes14) (f : Bool) (a : Arch) : (a.setSs b v f).tag = a.tag := (rfl)
@[simp] theorem Arch.setSs_tagv (b : Stream) (v : Bytes14) (f : Bool) (a : Arch) : (a.setSs b v f).tagv = a.tagv := (rfl)
@[simp] theorem Arch.setSs_matched (b : Stream) (v : Bytes14) (f : Bool) (a : Arch) : (a.setSs b v f).matched = a.matched := (rfl)
@[simp] theorem Arch.setSs_matchv (b : Stream) (v : Bytes14) (f : Bool) (a : Arch) : (a.setSs b v f).matchv = a.matchv := (rfl)

@[simp] theorem Arch.setSa_err (b : Stream) (v : Bytes20) (f : Bool) (a : Arch) : (a.setSa b v f).err = a.err := (rfl)
@[simp] theorem Arch.setSa_mv (b : Stream) (v : Bytes20) (f : Bool) (a : Arch) : (a.setSa b v f).mv = a.mv := (rfl)
@[simp] theorem Arch.setSa_mk (b : Stream) (v : Bytes20) (f : Bool) (a : Arch) : (a.setSa b v f).mk = a.mk := (rfl)
@[simp] theorem Arch.setSa_ms (b : Stream) (v : Bytes20) (f : Bool) (a : Arch) : (a.setSa b v f).ms = a.ms := (rfl)
@[simp] theorem Arch.setSa_kin (b : Stream) (v : Bytes20) (f : Bool) (a : Arch) : (a.setSa b v f).kin = a.kin := (rfl)
@[simp] theorem Arch.setSa_klen (b : Stream) (v : Bytes20) (f : Bool) (a : Arch) : (a.setSa b v f).klen = a.klen := (rfl)
@[simp] theorem Arch.setSa_sin (b : Stream) (v : Bytes20) (f : Bool) (a : Arch) : (a.setSa b v f).sin = a.sin := (rfl)
@[simp] theorem Arch.setSa_slen (b : Stream) (v : Bytes20) (f : Bool) (a : Arch) : (a.setSa b v f).slen = a.slen := (rfl)
@[simp] theorem Arch.setSa_sk (b : Stream) (v : Bytes20) (f : Bool) (a : Arch) : (a.setSa b v f).sk = a.sk := (rfl)
@[simp] theorem Arch.setSa_ss (b : Stream) (v : Bytes20) (f : Bool) (a : Arch) : (a.setSa b v f).ss = a.ss := (rfl)
@[simp] theorem Arch.setSa_sa (b : Stream) (v : Bytes20) (f : Bool) (a : Arch) : (a.setSa b v f).sa = a.sa.set b v := (rfl)
@[simp] theorem Arch.setSa_skv (b : Stream) (v : Bytes20) (f : Bool) (a : Arch) : (a.setSa b v f).skv = a.skv := (rfl)
@[simp] theorem Arch.setSa_ssv (b : Stream) (v : Bytes20) (f : Bool) (a : Arch) : (a.setSa b v f).ssv = a.ssv := (rfl)
@[simp] theorem Arch.setSa_sav (b : Stream) (v : Bytes20) (f : Bool) (a : Arch) : (a.setSa b v f).sav = a.sav.set b f := (rfl)
@[simp] theorem Arch.setSa_seq (b : Stream) (v : Bytes20) (f : Bool) (a : Arch) : (a.setSa b v f).seq = a.seq := (rfl)
@[simp] theorem Arch.setSa_roc (b : Stream) (v : Bytes20) (f : Bool) (a : Arch) : (a.setSa b v f).roc = a.roc := (rfl)
@[simp] theorem Arch.setSa_ssrc (b : Stream) (v : Bytes20) (f : Bool) (a : Arch) : (a.setSa b v f).ssrc = a.ssrc := (rfl)
@[simp] theorem Arch.setSa_ctr (b : Stream) (v : Bytes20) (f : Bool) (a : Arch) : (a.setSa b v f).ctr = a.ctr := (rfl)
@[simp] theorem Arch.setSa_ctrv (b : Stream) (v : Bytes20) (f : Bool) (a : Arch) : (a.setSa b v f).ctrv = a.ctrv := (rfl)
@[simp] theorem Arch.setSa_msglen (b : Stream) (v : Bytes20) (f : Bool) (a : Arch) : (a.setSa b v f).msglen = a.msglen := (rfl)
@[simp] theorem Arch.setSa_msg (b : Stream) (v : Bytes20) (f : Bool) (a : Arch) : (a.setSa b v f).msg = a.msg := (rfl)
@[simp] theorem Arch.setSa_claim (b : Stream) (v : Bytes20) (f : Bool) (a : Arch) : (a.setSa b v f).claim = a.claim := (rfl)
@[simp] theorem Arch.setSa_tag (b : Stream) (v : Bytes20) (f : Bool) (a : Arch) : (a.setSa b v f).tag = a.tag := (rfl)
@[simp] theorem Arch.setSa_tagv (b : Stream) (v : Bytes20) (f : Bool) (a : Arch) : (a.setSa b v f).tagv = a.tagv := (rfl)
@[simp] theorem Arch.setSa_matched (b : Stream) (v : Bytes20) (f : Bool) (a : Arch) : (a.setSa b v f).matched = a.matched := (rfl)
@[simp] theorem Arch.setSa_matchv (b : Stream) (v : Bytes20) (f : Bool) (a : Arch) : (a.setSa b v f).matchv = a.matchv := (rfl)

@[simp] theorem Arch.setCtr_err (v : Bytes16) (f : Bool) (a : Arch) : (a.setCtr v f).err = a.err := (rfl)
@[simp] theorem Arch.setCtr_mv (v : Bytes16) (f : Bool) (a : Arch) : (a.setCtr v f).mv = a.mv := (rfl)
@[simp] theorem Arch.setCtr_mk (v : Bytes16) (f : Bool) (a : Arch) : (a.setCtr v f).mk = a.mk := (rfl)
@[simp] theorem Arch.setCtr_ms (v : Bytes16) (f : Bool) (a : Arch) : (a.setCtr v f).ms = a.ms := (rfl)
@[simp] theorem Arch.setCtr_kin (v : Bytes16) (f : Bool) (a : Arch) : (a.setCtr v f).kin = a.kin := (rfl)
@[simp] theorem Arch.setCtr_klen (v : Bytes16) (f : Bool) (a : Arch) : (a.setCtr v f).klen = a.klen := (rfl)
@[simp] theorem Arch.setCtr_sin (v : Bytes16) (f : Bool) (a : Arch) : (a.setCtr v f).sin = a.sin := (rfl)
@[simp] theorem Arch.setCtr_slen (v : Bytes16) (f : Bool) (a : Arch) : (a.setCtr v f).slen = a.slen := (rfl)
@[simp] theorem Arch.setCtr_sk (v : Bytes16) (f : Bool) (a : Arch) : (a.setCtr v f).sk = a.sk := (rfl)
@[simp] theorem Arch.setCtr_ss (v : Bytes16) (f : Bool) (a : Arch) : (a.setCtr v f).ss = a.ss := (rfl)
@[simp] theorem Arch.setCtr_sa (v : Bytes16) (f : Bool) (a : Arch) : (a.setCtr v f).sa = a.sa := (rfl)
@[simp] theorem Arch.setCtr_skv (v : Bytes16) (f : Bool) (a : Arch) : (a.setCtr v f).skv = a.skv := (rfl)
@[simp] theorem Arch.setCtr_ssv (v : Bytes16) (f : Bool) (a : Arch) : (a.setCtr v f).ssv = a.ssv := (rfl)
@[simp] theorem Arch.setCtr_sav (v : Bytes16) (f : Bool) (a : Arch) : (a.setCtr v f).sav = a.sav := (rfl)
@[simp] theorem Arch.setCtr_seq (v : Bytes16) (f : Bool) (a : Arch) : (a.setCtr v f).seq = a.seq := (rfl)
@[simp] theorem Arch.setCtr_roc (v : Bytes16) (f : Bool) (a : Arch) : (a.setCtr v f).roc = a.roc := (rfl)
@[simp] theorem Arch.setCtr_ssrc (v : Bytes16) (f : Bool) (a : Arch) : (a.setCtr v f).ssrc = a.ssrc := (rfl)
@[simp] theorem Arch.setCtr_ctr (v : Bytes16) (f : Bool) (a : Arch) : (a.setCtr v f).ctr = v := (rfl)
@[simp] theorem Arch.setCtr_ctrv (v : Bytes16) (f : Bool) (a : Arch) : (a.setCtr v f).ctrv = f := (rfl)
@[simp] theorem Arch.setCtr_msglen (v : Bytes16) (f : Bool) (a : Arch) : (a.setCtr v f).msglen = a.msglen := (rfl)
@[simp] theorem Arch.setCtr_msg (v : Bytes16) (f : Bool) (a : Arch) : (a.setCtr v f).msg = a.msg := (rfl)
@[simp] theorem Arch.setCtr_claim (v : Bytes16) (f : Bool) (a : Arch) : (a.setCtr v f).claim = a.claim := (rfl)
@[simp] theorem Arch.setCtr_tag (v : Bytes16) (f : Bool) (a : Arch) : (a.setCtr v f).tag = a.tag := (rfl)
@[simp] theorem Arch.setCtr_tagv (v : Bytes16) (f : Bool) (a : Arch) : (a.setCtr v f).tagv = a.tagv := (rfl)
@[simp] theorem Arch.setCtr_matched (v : Bytes16) (f : Bool) (a : Arch) : (a.setCtr v f).matched = a.matched := (rfl)
@[simp] theorem Arch.setCtr_matchv (v : Bytes16) (f : Bool) (a : Arch) : (a.setCtr v f).matchv = a.matchv := (rfl)

@[simp] theorem Arch.setTag_err (v : Bytes10) (f : Bool) (a : Arch) : (a.setTag v f).err = a.err := (rfl)
@[simp] theorem Arch.setTag_mv (v : Bytes10) (f : Bool) (a : Arch) : (a.setTag v f).mv = a.mv := (rfl)
@[simp] theorem Arch.setTag_mk (v : Bytes10) (f : Bool) (a : Arch) : (a.setTag v f).mk = a.mk := (rfl)
@[simp] theorem Arch.setTag_ms (v : Bytes10) (f : Bool) (a : Arch) : (a.setTag v f).ms = a.ms := (rfl)
@[simp] theorem Arch.setTag_kin (v : Bytes10) (f : Bool) (a : Arch) : (a.setTag v f).kin = a.kin := (rfl)
@[simp] theorem Arch.setTag_klen (v : Bytes10) (f : Bool) (a : Arch) : (a.setTag v f).klen = a.klen := (rfl)
@[simp] theorem Arch.setTag_sin (v : Bytes10) (f : Bool) (a : Arch) : (a.setTag v f).sin = a.sin := (rfl)
@[simp] theorem Arch.setTag_slen (v : Bytes10) (f : Bool) (a : Arch) : (a.setTag v f).slen = a.slen := (rfl)
@[simp] theorem Arch.setTag_sk (v : Bytes10) (f : Bool) (a : Arch) : (a.setTag v f).sk = a.sk := (rfl)
@[simp] theorem Arch.setTag_ss (v : Bytes10) (f : Bool) (a : Arch) : (a.setTag v f).ss = a.ss := (rfl)
@[simp] theorem Arch.setTag_sa (v : Bytes10) (f : Bool) (a : Arch) : (a.setTag v f).sa = a.sa := (rfl)
@[simp] theorem Arch.setTag_skv (v : Bytes10) (f : Bool) (a : Arch) : (a.setTag v f).skv = a.skv := (rfl)
@[simp] theorem Arch.setTag_ssv (v : Bytes10) (f : Bool) (a : Arch) : (a.setTag v f).ssv = a.ssv := (rfl)
@[simp] theorem Arch.setTag_sav (v : Bytes10) (f : Bool) (a : Arch) : (a.setTag v f).sav = a.sav := (rfl)
@[simp] theorem Arch.setTag_seq (v : Bytes10) (f : Bool) (a : Arch) : (a.setTag v f).seq = a.seq := (rfl)
@[simp] theorem Arch.setTag_roc (v : Bytes10) (f : Bool) (a : Arch) : (a.setTag v f).roc = a.roc := (rfl)
@[simp] theorem Arch.setTag_ssrc (v : Bytes10) (f : Bool) (a : Arch) : (a.setTag v f).ssrc = a.ssrc := (rfl)
@[simp] theorem Arch.setTag_ctr (v : Bytes10) (f : Bool) (a : Arch) : (a.setTag v f).ctr = a.ctr := (rfl)
@[simp] theorem Arch.setTag_ctrv (v : Bytes10) (f : Bool) (a : Arch) : (a.setTag v f).ctrv = a.ctrv := (rfl)
@[simp] theorem Arch.setTag_msglen (v : Bytes10) (f : Bool) (a : Arch) : (a.setTag v f).msglen = a.msglen := (rfl)
@[simp] theorem Arch.setTag_msg (v : Bytes10) (f : Bool) (a : Arch) : (a.setTag v f).msg = a.msg := (rfl)
@[simp] theorem Arch.setTag_claim (v : Bytes10) (f : Bool) (a : Arch) : (a.setTag v f).claim = a.claim := (rfl)
@[simp] theorem Arch.setTag_tag (v : Bytes10) (f : Bool) (a : Arch) : (a.setTag v f).tag = v := (rfl)
@[simp] theorem Arch.setTag_tagv (v : Bytes10) (f : Bool) (a : Arch) : (a.setTag v f).tagv = f := (rfl)
@[simp] theorem Arch.setTag_matched (v : Bytes10) (f : Bool) (a : Arch) : (a.setTag v f).matched = a.matched := (rfl)
@[simp] theorem Arch.setTag_matchv (v : Bytes10) (f : Bool) (a : Arch) : (a.setTag v f).matchv = a.matchv := (rfl)

@[simp] theorem Arch.setMatch_err (v f : Bool) (a : Arch) : (a.setMatch v f).err = a.err := (rfl)
@[simp] theorem Arch.setMatch_mv (v f : Bool) (a : Arch) : (a.setMatch v f).mv = a.mv := (rfl)
@[simp] theorem Arch.setMatch_mk (v f : Bool) (a : Arch) : (a.setMatch v f).mk = a.mk := (rfl)
@[simp] theorem Arch.setMatch_ms (v f : Bool) (a : Arch) : (a.setMatch v f).ms = a.ms := (rfl)
@[simp] theorem Arch.setMatch_kin (v f : Bool) (a : Arch) : (a.setMatch v f).kin = a.kin := (rfl)
@[simp] theorem Arch.setMatch_klen (v f : Bool) (a : Arch) : (a.setMatch v f).klen = a.klen := (rfl)
@[simp] theorem Arch.setMatch_sin (v f : Bool) (a : Arch) : (a.setMatch v f).sin = a.sin := (rfl)
@[simp] theorem Arch.setMatch_slen (v f : Bool) (a : Arch) : (a.setMatch v f).slen = a.slen := (rfl)
@[simp] theorem Arch.setMatch_sk (v f : Bool) (a : Arch) : (a.setMatch v f).sk = a.sk := (rfl)
@[simp] theorem Arch.setMatch_ss (v f : Bool) (a : Arch) : (a.setMatch v f).ss = a.ss := (rfl)
@[simp] theorem Arch.setMatch_sa (v f : Bool) (a : Arch) : (a.setMatch v f).sa = a.sa := (rfl)
@[simp] theorem Arch.setMatch_skv (v f : Bool) (a : Arch) : (a.setMatch v f).skv = a.skv := (rfl)
@[simp] theorem Arch.setMatch_ssv (v f : Bool) (a : Arch) : (a.setMatch v f).ssv = a.ssv := (rfl)
@[simp] theorem Arch.setMatch_sav (v f : Bool) (a : Arch) : (a.setMatch v f).sav = a.sav := (rfl)
@[simp] theorem Arch.setMatch_seq (v f : Bool) (a : Arch) : (a.setMatch v f).seq = a.seq := (rfl)
@[simp] theorem Arch.setMatch_roc (v f : Bool) (a : Arch) : (a.setMatch v f).roc = a.roc := (rfl)
@[simp] theorem Arch.setMatch_ssrc (v f : Bool) (a : Arch) : (a.setMatch v f).ssrc = a.ssrc := (rfl)
@[simp] theorem Arch.setMatch_ctr (v f : Bool) (a : Arch) : (a.setMatch v f).ctr = a.ctr := (rfl)
@[simp] theorem Arch.setMatch_ctrv (v f : Bool) (a : Arch) : (a.setMatch v f).ctrv = a.ctrv := (rfl)
@[simp] theorem Arch.setMatch_msglen (v f : Bool) (a : Arch) : (a.setMatch v f).msglen = a.msglen := (rfl)
@[simp] theorem Arch.setMatch_msg (v f : Bool) (a : Arch) : (a.setMatch v f).msg = a.msg := (rfl)
@[simp] theorem Arch.setMatch_claim (v f : Bool) (a : Arch) : (a.setMatch v f).claim = a.claim := (rfl)
@[simp] theorem Arch.setMatch_tag (v f : Bool) (a : Arch) : (a.setMatch v f).tag = a.tag := (rfl)
@[simp] theorem Arch.setMatch_tagv (v f : Bool) (a : Arch) : (a.setMatch v f).tagv = a.tagv := (rfl)
@[simp] theorem Arch.setMatch_matched (v f : Bool) (a : Arch) : (a.setMatch v f).matched = v := (rfl)
@[simp] theorem Arch.setMatch_matchv (v f : Bool) (a : Arch) : (a.setMatch v f).matchv = f := (rfl)

@[simp] theorem State.mapArch_cfg (f : Arch → Arch) (s : State) : (s.mapArch f).cfg = s.cfg := (rfl)
@[simp] theorem State.mapArch_arch (f : Arch → Arch) (s : State) : (s.mapArch f).arch = f s.arch := (rfl)
@[simp] theorem State.mapArch_pending (f : Arch → Arch) (s : State) : (s.mapArch f).pending = s.pending := (rfl)
@[simp] theorem State.mapArch_answers (f : Arch → Arch) (s : State) : (s.mapArch f).answers = s.answers := (rfl)

@[simp] theorem State.answered_cfg (x : Answer) (s : State) : (s.answered x).cfg = s.cfg := (rfl)
@[simp] theorem State.answered_arch (x : Answer) (s : State) : (s.answered x).arch = s.arch := (rfl)
@[simp] theorem State.answered_pending (x : Answer) (s : State) : (s.answered x).pending = s.pending := (rfl)
@[simp] theorem State.answered_answers (x : Answer) (s : State) : (s.answered x).answers = x :: s.answers := (rfl)

@[simp] theorem State.withPending_cfg (rest : List HostEvent) (s : State) : (s.withPending rest).cfg = s.cfg := (rfl)
@[simp] theorem State.withPending_arch (rest : List HostEvent) (s : State) : (s.withPending rest).arch = s.arch := (rfl)
@[simp] theorem State.withPending_pending (rest : List HostEvent) (s : State) : (s.withPending rest).pending = rest := (rfl)
@[simp] theorem State.withPending_answers (rest : List HostEvent) (s : State) : (s.withPending rest).answers = s.answers := (rfl)

/-! How each result write and the last act of a command, the write of `ERR`, make one record. The values stay variables:
cite these by `rw` instead of asking for `rfl` on a state that holds a computed tag or key. -/

theorem Arch.setSk_setErr (b : Stream) (v : Bytes16) (f : Bool) (e : BitVec 8) (a : Arch) :
    (a.setSk b v f).setErr e = { a with sk := a.sk.set b v, skv := a.skv.set b f, err := e } := (rfl)
theorem Arch.setSs_setErr (b : Stream) (v : Bytes14) (f : Bool) (e : BitVec 8) (a : Arch) :
    (a.setSs b v f).setErr e = { a with ss := a.ss.set b v, ssv := a.ssv.set b f, err := e } := (rfl)
theorem Arch.setSa_setErr (b : Stream) (v : Bytes20) (f : Bool) (e : BitVec 8) (a : Arch) :
    (a.setSa b v f).setErr e = { a with sa := a.sa.set b v, sav := a.sav.set b f, err := e } := (rfl)
theorem Arch.setCtr_setErr (v : Bytes16) (f : Bool) (e : BitVec 8) (a : Arch) :
    (a.setCtr v f).setErr e = { a with ctr := v, ctrv := f, err := e } := (rfl)
theorem Arch.setTag_setErr (v : Bytes10) (f : Bool) (e : BitVec 8) (a : Arch) :
    (a.setTag v f).setErr e = { a with tag := v, tagv := f, err := e } := (rfl)
theorem Arch.setMatch_setErr (v f : Bool) (e : BitVec 8) (a : Arch) :
    (a.setMatch v f).setErr e = { a with matched := v, matchv := f, err := e } := (rfl)

end Sys2Proof.Machine
end

