-- ==== Sys2Proof/Laws/Ops.lean ====
section
/-! SUPPORT. What the shared operations can do: completing, entering an error, and, from them, what any command can do. -/

namespace Sys2Proof.Machine

theorem complete_next (f : Arch → Arch) (s : State) :
    complete f s = .next { s with arch := (f s.arch).setErr okCode } := (rfl)

theorem raise_next (x : ErrorWrites) (e : ErrorKind) (s : State) :
    raise x e s = .next { s with arch := (x.apply s.arch).setErr e.code } := (rfl)

theorem complete_eq_next {f : Arch → Arch} {s t : State} (h : complete f s = .next t) :
    t = { s with arch := (f s.arch).setErr okCode } := by
  cases h; rfl

theorem raise_eq_next {x : ErrorWrites} {e : ErrorKind} {s t : State} (h : raise x e s = .next t) :
    t = { s with arch := (x.apply s.arch).setErr e.code } := by
  cases h; rfl

theorem ErrorKind.code_ne_ok (e : ErrorKind) : e.code ≠ okCode := by cases e <;> decide

/-- What a command can do: it completes by some change of the core, or enters an error; nothing else. -/
inductive Ends (s : State) : Host.Outcome State Fault Refusal → Prop where
  | completes (f : Arch → Arch) : Ends s (complete f s)
  | errs (x : ErrorWrites) (e : ErrorKind) (h : e ≠ .cipherInitializationFailure) (h' : e ≠ .illegalCommand) :
      Ends s (raise x e s)

theorem execLoad_ends (s : State) : Ends s (execLoad s) := by
  unfold execLoad
  split
  · exact .errs _ _ (by decide) (by decide)
  · split
    · exact .errs _ _ (by decide) (by decide)
    · exact .completes _

theorem execTag_ends (b : Stream) (s : State) : Ends s (execTag b s) := by
  unfold execTag
  split
  · exact .errs _ _ (by decide) (by decide)
  · split
    · exact .errs _ _ (by decide) (by decide)
    · exact .completes _

theorem execVerify_ends (b : Stream) (s : State) : Ends s (execVerify b s) := by
  unfold execVerify
  split
  · exact .errs _ _ (by decide) (by decide)
  · split
    · exact .errs _ _ (by decide) (by decide)
    · exact .completes _

theorem loaded_ends (c : Bool) (f : Arch → Arch) (x : ErrorWrites) (s : State) :
    Ends s (if c then complete f s else raise x .notLoaded s) := by
  split
  · exact .completes _
  · exact .errs _ _ (by decide) (by decide)

theorem exec_ends (i : Instr) (s : State) : Ends s (exec i s) := by
  cases i with
  | nop => exact .completes _
  | load => exact execLoad_ends s
  | clear => exact .completes _
  | kdfKey b l => exact loaded_ends _ _ _ s
  | kdfSalt b l => exact loaded_ends _ _ _ s
  | kdfAuth b l => exact loaded_ends _ _ _ s
  | ctr b => exact loaded_ends _ _ _ s
  | tag b => exact execTag_ends b s
  | verify b => exact execVerify_ends b s

/-- A command touches nothing but the core. -/
theorem exec_cfg_pending_answers {i : Instr} {s t : State} (h : exec i s = .next t) :
    t.cfg = s.cfg ∧ t.pending = s.pending ∧ t.answers = s.answers := by
  have key := exec_ends i s
  rw [h] at key
  generalize ho : (Host.Outcome.next t : Host.Outcome State Fault Refusal) = o at key
  cases key with
  | completes f => cases ho; exact ⟨rfl, rfl, rfl⟩
  | errs x e hx hx' => cases ho; exact ⟨rfl, rfl, rfl⟩

end Sys2Proof.Machine
end

