-- ==== Sys2Proof/Laws/PerInstr.lean ====
section
/-! SUPPORT. Facts about every command as syntax, one lemma per constructor. -/

namespace Sys2Proof.Laws.EncodedFields

/-- The fields of an encoded command (30_encoding.md R70, R75): the reserved ones zero, the others the command's own. -/
def Statement (i : Instr) : Prop :=
  CommandFields.ofWord (encode i) =
    { z1 := 0, label := i.labelField, z0 := 0, s := i.streamBit, op := i.op }

/-- The fields of any word put together as R75 puts them. -/
theorem ofWord_join (l : BitVec 8) (s : BitVec 1) (op : BitVec 8) :
    CommandFields.ofWord (l.setWidth 32 <<< 16 ||| s.setWidth 32 <<< 8 ||| op.setWidth 32) =
      { z1 := 0, label := l, z0 := 0, s := s, op := op } := by
  simp only [CommandFields.ofWord, CommandFields.mk.injEq]
  refine ⟨?_, ?_, ?_, ?_, ?_⟩ <;>
    · ext k hk
      interval_cases k <;> simp

theorem nop : Statement .nop := ofWord_join _ _ _
theorem load : Statement .load := ofWord_join _ _ _
theorem clear : Statement .clear := ofWord_join _ _ _
theorem kdfKey (b : Stream) (label : Byte) : Statement (.kdfKey b label) := ofWord_join _ _ _
theorem kdfSalt (b : Stream) (label : Byte) : Statement (.kdfSalt b label) := ofWord_join _ _ _
theorem kdfAuth (b : Stream) (label : Byte) : Statement (.kdfAuth b label) := ofWord_join _ _ _
theorem ctr (b : Stream) : Statement (.ctr b) := ofWord_join _ _ _
theorem tag (b : Stream) : Statement (.tag b) := ofWord_join _ _ _
theorem verify (b : Stream) : Statement (.verify b) := ofWord_join _ _ _

end Sys2Proof.Laws.EncodedFields
end

