-- ==== Sys2Proof/Laws/Primitives.lean ====
section
/-! SUPPORT. Laws of the primitives: the bytes of a word, and the rounds of a schedule cut in two. -/

namespace Sys2Proof.Machine

@[simp] theorem byteAt_wordOf_zero (a b c d : Byte) : byteAt (wordOf a b c d) 0 = a := by
  show (a ++ b ++ c ++ d : BitVec (8 + 8 + 8 + 8)).extractLsb' 24 8 = a
  ext i hi
  rw [BitVec.getElem_extractLsb']
  simp only [BitVec.getLsbD_append]
  grind

@[simp] theorem byteAt_wordOf_one (a b c d : Byte) : byteAt (wordOf a b c d) 1 = b := by
  show (a ++ b ++ c ++ d : BitVec (8 + 8 + 8 + 8)).extractLsb' 16 8 = b
  ext i hi
  rw [BitVec.getElem_extractLsb']
  simp only [BitVec.getLsbD_append]
  grind

@[simp] theorem byteAt_wordOf_two (a b c d : Byte) : byteAt (wordOf a b c d) 2 = c := by
  show (a ++ b ++ c ++ d : BitVec (8 + 8 + 8 + 8)).extractLsb' 8 8 = c
  ext i hi
  rw [BitVec.getElem_extractLsb']
  simp only [BitVec.getLsbD_append]
  grind

@[simp] theorem byteAt_wordOf_three (a b c d : Byte) : byteAt (wordOf a b c d) 3 = d := by
  show (a ++ b ++ c ++ d : BitVec (8 + 8 + 8 + 8)).extractLsb' 0 8 = d
  ext i hi
  rw [BitVec.getElem_extractLsb']
  simp only [BitVec.getLsbD_append]
  grind

/-- The rounds of a schedule in two parts, the second going on where the first ends (R174). -/
theorem Sha1.rounds_append (ws us : List Word) (t : Nat) (h : Sha1.Chain) :
    Sha1.rounds t (ws ++ us) h = Sha1.rounds (t + ws.length) us (Sha1.rounds t ws h) := by
  induction ws generalizing t h with
  | nil => rfl
  | cons w ws ih =>
    simp only [List.cons_append, Sha1.rounds, ih, List.length_cons]
    congr 1
    omega

/-- One middle round more (R159). -/
theorem Aes.middleRounds_succ (w : List Word) (n : Nat) (st : Bytes16) :
    Aes.middleRounds w (n + 1) st =
      Aes.addRoundKey (Aes.mixColumns (Aes.shiftRows (Aes.subBytes (Aes.middleRounds w n st))))
        (Aes.roundKey w (n + 1)) := (rfl)

end Sys2Proof.Machine
end

