-- ==== Sys2Proof/Laws/Step.lean ====
section
/-! SUPPORT. What the port and a step can do. -/

namespace Sys2Proof.Machine

@[simp] theorem ofId_zero : RegName.ofId 0#8 = some .cmd := by decide

@[simp] theorem commandWord_commandEvent (w : Word) : commandWord (commandEvent w) = some w := by
  simp [commandWord, commandEvent, RegName.width]

@[simp] theorem commandWord_reset : commandWord .reset = none := rfl
@[simp] theorem commandWord_regRead (id : BitVec 8) : commandWord (.port (.regRead id)) = none := rfl
@[simp] theorem commandWord_msgRead (off : Word) : commandWord (.port (.msgRead off)) = none := rfl
@[simp] theorem commandWord_msgWrite (off : Word) (b : Byte) : commandWord (.port (.msgWrite off b)) = none := rfl

@[simp] theorem acknowledge_next (s : State) : acknowledge (.next s) = .next (s.answered (.ack none)) := (rfl)

theorem acknowledge_eq_next {o : Host.Outcome State Fault Refusal} {t : State} (h : acknowledge o = .next t) :
    ∃ s, o = .next s ∧ t = s.answered (.ack none) := by
  cases o with
  | next s => exact ⟨s, rfl, by simpa using h.symm⟩
  | fault r => cases h
  | refused r => cases h

/-- `writeReg` takes only a value of the register's own width. -/
theorem writeReg_eq_some {r : RegName} {v : PortValue} {a a' : Arch} (h : writeReg r v a = some a') :
    v.width = r.width ∧ storeReg r v a = some a' := by
  unfold writeReg at h
  split at h
  · exact ⟨by assumption, h⟩
  · cases h

/-- What a register write other than a command can do. -/
theorem serveRegWrite_cases (id : BitVec 8) (v : PortValue) (s : State) :
    (∃ r a, RegName.ofId id = some r ∧ writeReg r v s.arch = some a ∧
      serveRegWrite id v s = (s.mapArch fun _ => a).answered (.ack none)) ∨
    serveRegWrite id v s = s.answered .nak := by
  unfold serveRegWrite refuse
  cases hr : RegName.ofId id with
  | none => exact .inr rfl
  | some r =>
    cases hw : writeReg r v s.arch with
    | none => exact .inr (by simp [hw])
    | some a => exact .inl ⟨r, a, rfl, hw, by simp [hw]⟩

/-- What a step can do (20_memory.md R59): nothing, serve an event, run a command, or refuse an illegal word. -/
theorem step_cases {s t : State} (h : step s = .next t) :
    (s.pending = [] ∧ t = s) ∨
    ∃ e rest, s.pending = e :: rest ∧
      ((commandWord e = none ∧ t = serve e (s.withPending rest)) ∨
        ∃ w, commandWord e = some w ∧
          ((∃ r u, decodeWord w = .error r ∧ execIllegal (s.withPending rest) = .next u ∧ t = u.answered (.ack none)) ∨
            ∃ i u, decodeWord w = .ok i ∧ exec i (s.withPending rest) = .next u ∧ t = u.answered (.ack none))) := by
  unfold step at h
  split at h
  · rename_i hp
    cases h
    exact .inl ⟨hp, rfl⟩
  · rename_i e rest hp
    refine .inr ⟨e, rest, hp, ?_⟩
    split at h
    · rename_i hc
      cases h
      exact .inl ⟨hc, rfl⟩
    · rename_i w hc
      refine .inr ⟨w, hc, ?_⟩
      split at h
      · rename_i r hd
        obtain ⟨u, hu, ht⟩ := acknowledge_eq_next h
        exact .inl ⟨r, u, hd, hu, ht⟩
      · rename_i i hd
        obtain ⟨u, hu, ht⟩ := acknowledge_eq_next h
        exact .inr ⟨i, u, hd, hu, ht⟩

/-- What a step that serves a read of a register answers, where the register gives a value (20_memory.md R51). -/
theorem step_regRead {s : State} {rest : List HostEvent} {id : BitVec 8} {r : RegName} {v : PortValue}
    (hp : s.pending = .port (.regRead id) :: rest) (hr : RegName.ofId id = some r) (hv : readReg r s.arch = some v) :
    step s = .next ((s.withPending rest).answered (.ack (some v))) := by
  simp [step, hp, serve, serveRegRead, hr, hv]

end Sys2Proof.Machine
end

