-- ==== Sys2Proof/Machine/HostProgram.lean ====
section
/-! DEFINITION. The host-program notation of 30_encoding.md R76 and R77, and the label table of R82, as lists of port
events. The core knows none of it (R77); nothing here is read by `step` (notes/assumptions/10.md). -/

namespace Sys2Proof.Machine.HostProgram

/-- `wr NAME, value` (R76). -/
def wr {w : Nat} (r : RegName) (v : BitVec w) : HostEvent := .port (.regWrite r.id ⟨w, v⟩)

/-- `rd NAME` (R76). -/
def rd (r : RegName) : HostEvent := .port (.regRead r.id)

/-- `wrmsg off, hexrun`: one `MsgWrite` a byte (R76); also `MemWrite(off, n, v)` (00_scope.md R8, 20_memory.md R51).
DESIGN CHOICE (notes/assumptions/16.md): the writes are listed in ascending order of offset, where R51 allows any order;
and an offset `off + k` that reaches `2^32`, of which the spec says nothing, is taken modulo `2^32`. -/
def wrmsg (off : Nat) : List Byte → List HostEvent
  | [] => []
  | b :: bs => .port (.msgWrite (BitVec.ofNat 32 off) b) :: wrmsg (off + 1) bs

/-- `rdmsg off` (R76). -/
def rdmsg (off : Word) : HostEvent := .port (.msgRead off)

/-- A command line: `wr CMD, encode(command)` (R76). -/
def command (i : Instr) : HostEvent := commandEvent (encode i)

/-- `hexrun ‖ 0^(32 - n)` for a run of at most 32 bytes (R77). -/
def staged (run : List Byte) : Bytes32 :=
  (List.range 32).foldl (fun acc i => acc <<< 8 ||| (run.getD i 0).setWidth 256) 0

/-- `putkey hexrun`, at most 32 bytes (R77). -/
def putkey (run : List Byte) : List HostEvent := [wr .kin (staged run), wr .klen (BitVec.ofNat 8 run.length)]

/-- `putsalt hexrun`, at most 32 bytes (R77). -/
def putsalt (run : List Byte) : List HostEvent := [wr .sin (staged run), wr .slen (BitVec.ofNat 8 run.length)]

/-- `putmsg hexrun` (R77). -/
def putmsg (run : List Byte) : List HostEvent := wrmsg 0 run ++ [wr .msglen (BitVec.ofNat 32 run.length)]

/-- The table `LABELS`: which label the host passes for which slot (R82), a parameter of the host. -/
structure Labels where
  mediaKey : Byte
  mediaAuth : Byte
  mediaSalt : Byte
  controlKey : Byte
  controlAuth : Byte
  controlSalt : Byte
deriving DecidableEq, Repr

/-- The assignment of R82. -/
def Labels.published : Labels :=
  { mediaKey := 0x00, mediaAuth := 0x01, mediaSalt := 0x02, controlKey := 0x03, controlAuth := 0x04, controlSalt := 0x05 }

/-- The six derivations of `newcontext` (R77, 70_reset_and_hazards.md R212 step 3). -/
def derivations (l : Labels) : List HostEvent :=
  [command (.kdfKey .media l.mediaKey), command (.kdfAuth .media l.mediaAuth), command (.kdfSalt .media l.mediaSalt),
    command (.kdfKey .control l.controlKey), command (.kdfAuth .control l.controlAuth),
    command (.kdfSalt .control l.controlSalt)]

/-- `newcontext key, salt` up to `load` (R77, R212 steps 1 and 2). -/
def newcontextOpening (key salt : List Byte) : List HostEvent := putkey key ++ putsalt salt ++ [command .load]

/-- What follows the `load` of `newcontext`, "only if `ERR = OK`" (R77): `err` is what the host then reads in `ERR`. -/
def newcontextRest (l : Labels) (err : BitVec 8) : List HostEvent := if err = 0x00 then derivations l else []

/-- `computetag s, portion` (R77). -/
def computetag (b : Stream) (portion : List Byte) : List HostEvent :=
  putmsg portion ++ [command (.tag b), rd .err, rd .tag]

/-- `verifytag s, portion, claimed` (R77). -/
def verifytag (b : Stream) (portion : List Byte) (claimed : Bytes10) : List HostEvent :=
  putmsg portion ++ [wr .claim claimed, command (.verify b), rd .err, rd .flags]

/-- `buildcounter s, seq, roc, ssrc` (R77). -/
def buildcounter (b : Stream) (seq : BitVec 16) (roc ssrc : Word) : List HostEvent :=
  [wr .seq seq, wr .roc roc, wr .ssrc ssrc, command (.ctr b), rd .err, rd .ctr]

end Sys2Proof.Machine.HostProgram
end

