-- ==== Sys2Proof/Tests/Slice0.lean ====
section
/-! SUPPORT. The model's own tests. Expected values are the spec's (95_test_vectors.md unless another rule is named);
the second half shows, for every statement with hypotheses, a state and operands that meet them. -/

namespace Sys2Proof.Tests

open Sys2Proof Sys2Proof.Machine

/-! ### Helpers -/

/-- The next state of an outcome. -/
def nextOf : Host.Outcome State Fault Refusal → Option State
  | .next s => some s
  | .fault _ => none
  | .refused _ => none

/-- A message buffer holding a byte string from offset 0. -/
def bufferOf (bs : List Byte) : Memory := (List.range bs.length).foldl (fun m i => m.write i (bs.getD i 0)) []

/-- State `Q` of section 3: reset, the masters staged and loaded, with the message `P` of A11 in `MSG`, its tag in
`CLAIM`, and the operands of V3. -/
def archQ : Arch :=
  { Arch.reset with
    mv := true, mk := 0xe1f97a0d3e018be0d64fa32c06de4139, ms := 0x0ec675ad498afeebb6960b3aabe6
    kin := 0xe1f97a0d3e018be0d64fa32c06de413900000000000000000000000000000000, klen := 16
    sin := 0x0ec675ad498afeebb6960b3aabe6000000000000000000000000000000000000, slen := 14
    seq := 0x03e8, ssrc := 0xcafebabe
    msglen := 32
    msg := bufferOf
      (bytesOf (0x800f03e8decafbadcafebabe00112233445566778899aabbccddeeff00000000 : BitVec 256))
    claim := 0x8ffbf029b795e187f8a2 }

/-- The core at the end of program P1, with the same operands. -/
def archP1 : Arch :=
  { archQ with
    sk := ⟨0xc61e7a93744f39ee10734afe3ff7a087, 0x4c1aa45a81f73d61c800bbb00fbb1eaa⟩
    ss := ⟨0x30cbbc08863d8c85d49db34a9ae1, 0x9581c7ad87b3e530bf3e4454a8b3⟩
    sa := ⟨0xcebe321f6ff7716b6fd4ab49af256a156d38baa4, 0x8d54534feb49ae8e7993a6bd0b844fc323a93dfd⟩
    skv := ⟨true, true⟩, ssv := ⟨true, true⟩, sav := ⟨true, true⟩ }

/-- A machine with a core and a list of pending events. -/
def machine (a : Arch) (p : List HostEvent) : State := { State.reset with arch := a, pending := p }

def stateQ : State := machine archQ []
def stateP1 : State := machine archP1 []

/-! ### WellFormed refuses each ill-formed word (30_encoding.md R74) -/

theorem test_wellFormed_accepts : (CommandFields.mk 0 0xFF 0 1 0x10).wellFormed = true := by decide
theorem test_illFormed_unknownOp : (CommandFields.mk 0 0 0 0 0x03).wellFormed = false := by decide
theorem test_illFormed_z1 : (CommandFields.mk 1 0 0 0 0x10).wellFormed = false := by decide
theorem test_illFormed_z0 : (CommandFields.mk 0 0 1 0 0x10).wellFormed = false := by decide
theorem test_illFormed_label : (CommandFields.mk 0 1 0 0 0x20).wellFormed = false := by decide
theorem test_illFormed_stream : (CommandFields.mk 0 0 0 1 0x01).wellFormed = false := by decide

/-! ### Decoding, one word a command, bit by bit: Z1, LABEL, Z0, S, OP (30_encoding.md R70, R73) -/

/-- A word written field by field as bits. -/
def bits (z1 label : BitVec 8) (z0 : BitVec 7) (s : BitVec 1) (op : BitVec 8) : Word := z1 ++ label ++ z0 ++ s ++ op

theorem test_decode_nop : decodeWord (bits 0b00000000 0b00000000 0b0000000 0b0 0b00000000) = .ok .nop := by rfl
theorem test_decode_load : decodeWord (bits 0b00000000 0b00000000 0b0000000 0b0 0b00000001) = .ok .load := by rfl
theorem test_decode_clear : decodeWord (bits 0b00000000 0b00000000 0b0000000 0b0 0b00000010) = .ok .clear := by rfl
theorem test_decode_kdfKey :
    decodeWord (bits 0b00000000 0b11111110 0b0000000 0b1 0b00010000) = .ok (.kdfKey .control 0xFE) := by rfl
theorem test_decode_kdfSalt :
    decodeWord (bits 0b00000000 0b00000010 0b0000000 0b0 0b00010001) = .ok (.kdfSalt .media 0x02) := by rfl
theorem test_decode_kdfAuth :
    decodeWord (bits 0b00000000 0b10000001 0b0000000 0b1 0b00010010) = .ok (.kdfAuth .control 0x81) := by rfl
theorem test_decode_ctr : decodeWord (bits 0b00000000 0b00000000 0b0000000 0b1 0b00100000) = .ok (.ctr .control) := by rfl
theorem test_decode_tag : decodeWord (bits 0b00000000 0b00000000 0b0000000 0b0 0b00110000) = .ok (.tag .media) := by rfl
theorem test_decode_verify :
    decodeWord (bits 0b00000000 0b00000000 0b0000000 0b1 0b00110001) = .ok (.verify .control) := by rfl

/-- The illegal words of section 3.4, each with its reason. -/
theorem test_decode_illegal :
    decodeWord 0x00000003 = .error .unknownOp ∧ decodeWord 0x00000101 = .error .strayStream ∧
    decodeWord 0x00050000 = .error .strayLabel ∧ decodeWord 0x00000210 = .error .reservedZ0 ∧
    decodeWord 0x01000010 = .error .reservedZ1 ∧ decodeWord 0x00010020 = .error .strayLabel ∧
    decodeWord 0xFFFFFFFF = .error .reservedZ1 := ⟨rfl, rfl, rfl, rfl, rfl, rfl, rfl⟩

theorem test_decode_bytes : decode [0x00, 0x03, 0x01, 0x10, 0xAA] = .ok (.kdfKey .control 0x03, [0xAA]) := by rfl
theorem test_decode_short : decode [0x00, 0x03, 0x01] = .error .tooShort := by rfl
theorem test_tableWord : decodeTableWord 32 0x00030110 = some (.kdfKey .control 0x03) := by rfl
theorem test_encode_vectors :
    [encode (.kdfKey .control 0x03), encode (.kdfAuth .control 0x04), encode (.ctr .control), encode (.verify .media)] =
      [0x00030110, 0x00040112, 0x00000120, 0x00000031] := by decide

/-- The register map answers for its own numbers and for no other (B6: 0x03, 0x23, 0xFF are unimplemented). -/
theorem test_regMap : RegName.ofId 0x26 = some .sa1 ∧ RegName.ofId 0x42 = some .tag ∧ RegName.ofId 0x03 = none ∧
    RegName.ofId 0x23 = none ∧ RegName.ofId 0xFF = none := by decide

/-! ### Primitives (sections 2.1 to 2.3) -/

theorem test_mixColumn : Aes.mixColumn 0xdb 0x13 0x53 0x45 = 0x8e4da1bc := by decide +kernel
theorem test_round1 :
    Aes.subBytes 0x00102030405060708090a0b0c0d0e0f0 = 0x63cab7040953d051cd60e0e7ba70e18c ∧
    Aes.shiftRows 0x63cab7040953d051cd60e0e7ba70e18c = 0x6353e08c0960e104cd70b751bacad0e7 ∧
    Aes.mixColumns 0x6353e08c0960e104cd70b751bacad0e7 = 0x5f72641557f5bc92f7be3b291db9f91a := by decide +kernel
theorem test_roundKey10 :
    Aes.roundKey (Aes.keyExpansion 0x000102030405060708090a0b0c0d0e0f) 10 = 0x13111d7fe3944a17f307a78b4d2b30c5 := by
  decide +kernel
theorem test_encrypt :
    Aes.encrypt 0x000102030405060708090a0b0c0d0e0f 0x00112233445566778899aabbccddeeff =
      0x69c4e0d86a7b0430d8cdb78070b4c55a := by decide +kernel
theorem test_sha1_empty : Sha1.sha1 [] = 0xda39a3ee5e6b4b0d3255bfef95601890afd80709 := by decide +kernel
/-- 56 bytes: two blocks. -/
theorem test_sha1_56 :
    Sha1.sha1 (List.replicate 56 0x61) = 0xc2db330f6083854c99d4b5bfb6e8f29f201be699 := by decide +kernel
theorem test_hmac_jefe :
    Sha1.hmac [0x4a, 0x65, 0x66, 0x65]
      (bytesOf (0x7768617420646f2079612077616e7420666f72206e6f7468696e673f : BitVec 224)) =
      0xeffcdf6ae5eb2fa2d27416d5f184df9c259a7c79 := by decide +kernel

/-! ### Commands: one step each -/

/-- 60_exceptions.md R194, E12: `nop` overwrites an error with `OK`. -/
theorem test_nop : (nextOf (exec .nop (machine { archQ with err := 0x05 } []))).map (·.arch) = some archQ := by
  decide +kernel
/-- E7: `load` from the staged masters. -/
theorem test_load :
    (nextOf (exec .load (machine { archP1 with mk := 0, ms := 0 } []))).map (·.arch) = some archQ := by decide +kernel
/-- E6: with both lengths wrong the key's error is reported, and nothing else changes. -/
theorem test_load_wrong :
    (nextOf (exec .load (machine { archP1 with klen := 15, slen := 15 } []))).map (·.arch) =
      some { archP1 with klen := 15, slen := 15, err := 0x01 } := by decide +kernel
/-- E11. -/
theorem test_clear : (nextOf (exec .clear stateP1)).map (·.arch) = some Arch.reset := by decide +kernel
/-- K4. -/
theorem test_kdfKey :
    (nextOf (exec (.kdfKey .control 0x03) stateQ)).map (fun t => (t.arch.sk.control, t.arch.flags)) =
      some (0x4c1aa45a81f73d61c800bbb00fbb1eaa, 0x0011) := by decide +kernel
/-- K3. -/
theorem test_kdfSalt :
    (nextOf (exec (.kdfSalt .media 0x02) stateQ)).map (fun t => (t.arch.ss.media, t.arch.flags)) =
      some (0x30cbbc08863d8c85d49db34a9ae1, 0x0005) := by decide +kernel
/-- K5. -/
theorem test_kdfAuth :
    (nextOf (exec (.kdfAuth .control 0x04) stateQ)).map (fun t => (t.arch.sa.control, t.arch.flags)) =
      some (0x8d54534feb49ae8e7993a6bd0b844fc323a93dfd, 0x0041) := by decide +kernel
/-- K9. -/
theorem test_kdfKey_notLoaded :
    (nextOf (exec (.kdfKey .media 0x00) State.reset)).map (·.arch) = some { Arch.reset with err := 0x05 } := by
  decide +kernel
/-- V6. -/
theorem test_ctr :
    (nextOf (exec (.ctr .media)
        (machine { archP1 with seq := 0x1234, roc := 0x89abcdef, ssrc := 0x01020304 } []))).map (·.arch.ctr) =
      some 0x30cbbc08873f8f815d367ea588d50000 := by decide +kernel
/-- V7. -/
theorem test_ctr_control :
    (nextOf (exec (.ctr .control) stateP1)).map (fun t => (t.arch.ctr, t.arch.ctrv)) =
      some (0x9581c7ad4d4d5f8ebf3e4454ab5b0000, true) := by decide +kernel
/-- A11. -/
theorem test_tag : (nextOf (exec (.tag .media) stateP1)).map (·.arch.tag) = some 0x8ffbf029b795e187f8a2 := by
  decide +kernel
/-- A20's cause in `tag`: the message does not fit. -/
theorem test_tag_tooLong :
    (nextOf (exec (.tag .media) (machine { archP1 with msglen := 2049, tag := 1, tagv := true } []))).map
      (fun t => (t.arch.tag, t.arch.tagv, t.arch.err)) = some (0, false, 0x04) := by decide +kernel
/-- A13: the last bit of the claim is flipped. -/
theorem test_verify_mismatch :
    (nextOf (exec (.verify .media) (machine { archP1 with claim := 0x8ffbf029b795e187f8a3 } []))).map
      (fun t => (t.arch.err, t.arch.matchv, t.arch.matched)) = some (0x00, true, false) := by decide +kernel
/-- A16. -/
theorem test_verify_control :
    (nextOf (exec (.verify .control) (machine { archP1 with claim := 0xeeeaaf6206df097bbe2d } []))).map
      (fun t => (t.arch.err, t.arch.matchv, t.arch.matched)) = some (0x00, true, true) := by decide +kernel

/-! ### Port: one step each (section 3.5) -/

/-- B10: an illegal word is acknowledged; `ERR` becomes 0x06. -/
theorem test_step_illegal :
    (nextOf (step (machine archQ [commandEvent 0xFFFFFFFF]))).map (fun t => (t.arch, t.answers)) =
      some ({ archQ with err := 0x06 }, [.ack none]) := by decide +kernel
/-- The step of a fetched word is the command's, then the acknowledgement. -/
theorem test_step_fetch :
    (nextOf (step (State.reset.withFetchWord 32 0x00000010))).map (fun t => (t.arch.err, t.pending, t.answers)) =
      some (0x05, [], [.ack none]) := by decide +kernel
/-- B5: a read-only register refuses a write. -/
theorem test_write_readOnly :
    (nextOf (step (machine archP1 [HostProgram.wr .sa0 (0 : BitVec 160)]))).map (fun t => (t.arch, t.answers)) =
      some (archP1, [.nak]) := by decide +kernel
/-- B3: a secret with its flag clear refuses a read; P1: with its flag set it is read. -/
theorem test_read_secret :
    ((nextOf (step (machine archQ [HostProgram.rd .sk0]))).map (·.answers) = some [.nak]) ∧
    (nextOf (step (machine archP1 [HostProgram.rd .sk0]))).map (·.answers) =
      some [.ack (some ⟨128, 0xc61e7a93744f39ee10734afe3ff7a087⟩)] := by decide +kernel
/-- B7, B8: the last byte of `MSG` is writable, the next offset is not. -/
theorem test_msgWrite_edge :
    ((nextOf (step (machine Arch.reset [.port (.msgWrite 2047 0xAB)]))).map (fun t => t.arch.msg.read 2047) = some 0xAB) ∧
    (nextOf (step (machine Arch.reset [.port (.msgWrite 2048 0xAB)]))).map (fun t => (t.arch, t.answers)) =
      some (Arch.reset, [.nak]) := by decide +kernel
/-- P1: `FLAGS` at the end of the construction. -/
theorem test_read_flags :
    (nextOf (step (machine archP1 [HostProgram.rd .flags]))).map (·.answers) = some [.ack (some ⟨16, 0x007f⟩)] := by
  decide +kernel
/-- 30_encoding.md R77: `putkey` of the 15-byte candidate of P4. -/
theorem test_putkey :
    HostProgram.putkey (bytesOf (0xe1f97a0d3e018be0d64fa32c06de41 : BitVec 120)) =
      [.port (.regWrite 0x10 ⟨256, 0xe1f97a0d3e018be0d64fa32c06de410000000000000000000000000000000000⟩),
        .port (.regWrite 0x11 ⟨8, 0x0f⟩)] := by decide +kernel

/-! ### Witnesses: the hypotheses of each statement can be met -/

/-- A state with a `MSG_MAX` of 32, where the message of `P` just fits. -/
def stateTight : State := { stateP1 with cfg := { msgMax := 32 } }

/-- The same one byte too small. -/
def stateTooSmall : State := { stateP1 with cfg := { msgMax := 31 } }

theorem witness_DecodeAndEncodeAgree : decodeWord 0x00FF0110 = .ok (.kdfKey .control 0xFF) := by rfl
theorem witness_DecodeAgreesWithOpcodeTable :
    decodeWord 0x00FF0110 = .ok (.kdfKey .control 0xFF) ∧ ∃ r ∈ opcodeRows, r.covers 0x00FF0110 = true := by
  exact ⟨rfl, by decide⟩
theorem witness_IllegalWordsOnlySetErr :
    (machine archQ [commandEvent 0x00000101]).pending = commandEvent 0x00000101 :: [] ∧
      ∀ r ∈ opcodeRows, r.covers 0x00000101 = false := ⟨rfl, by decide⟩
theorem witness_StepRunsTheDecodedCommand :
    (machine archQ [commandEvent 0x00000120]).pending = commandEvent 0x00000120 :: [] ∧
      decodeWord 0x00000120 = .ok (.ctr .control) ∧
      ∃ t, exec (.ctr .control) { machine archQ [commandEvent 0x00000120] with pending := [] } = .next t :=
  ⟨rfl, rfl, _, rfl⟩
theorem witness_IdleStepChangesNothing : stateP1.pending = [] := rfl
theorem witness_CommandsSeeOnlyTheCore : ∃ t, exec (.kdfKey .media 0x00) stateQ = .next t := ⟨_, rfl⟩
theorem witness_LoadInstallsTheContextOrNamesTheLength :
    (stateQ.arch.klen = 16 ∧ stateQ.arch.slen = 14) ∧
    (machine { archQ with klen := 17 } []).arch.klen ≠ 16 ∧
    ((machine { archQ with slen := 15 } []).arch.klen = 16 ∧ (machine { archQ with slen := 15 } []).arch.slen ≠ 14) := by
  decide
/-- Staging registers that differ from those of `stateQ` only beyond the candidates. -/
theorem witness_LoadTakesTheLeadingStagingBytes :
    stateQ.arch.klen = 16 ∧ stateQ.arch.slen = 14 ∧ (∃ t, exec .load stateQ = .next t) ∧
    (stateQ.arch.kin ^^^ 1 ≠ stateQ.arch.kin ∧ ∀ i < 16, byteAt (stateQ.arch.kin ^^^ 1) i = byteAt stateQ.arch.kin i) ∧
    ∀ i < 14, byteAt (stateQ.arch.sin ^^^ 1) i = byteAt stateQ.arch.sin i :=
  ⟨rfl, rfl, ⟨_, rfl⟩, by decide +kernel, by decide +kernel⟩
/-- The hypotheses of the three derivation statements. -/
theorem witness_Kdf : stateQ.arch.mv = true ∧ State.reset.arch.mv = false := ⟨rfl, rfl⟩
theorem witness_SessionMaterialIsAPrefixOfTheKeystream : stateQ.arch.mv = true ∧
    (∃ t, exec (.kdfKey .media 0x00) stateQ = .next t) ∧ (∃ t, exec (.kdfSalt .media 0x00) stateQ = .next t) ∧
    ∃ t, exec (.kdfAuth .media 0x00) stateQ = .next t := ⟨rfl, ⟨_, rfl⟩, ⟨_, rfl⟩, ⟨_, rfl⟩⟩
/-- Two different cores with the same masters, deriving for different streams. -/
theorem witness_DerivationsDependOnMastersAndLabelOnly :
    stateQ ≠ stateP1 ∧ stateQ.arch.mv = true ∧ stateP1.arch.mv = true ∧ stateQ.arch.mk = stateP1.arch.mk ∧
      stateQ.arch.ms = stateP1.arch.ms ∧
      (∃ t, exec (.kdfKey .media 0x01) stateQ = .next t) ∧ (∃ t, exec (.kdfKey .control 0x01) stateP1 = .next t) ∧
      (∃ t, exec (.kdfSalt .media 0x01) stateQ = .next t) ∧ (∃ t, exec (.kdfSalt .control 0x01) stateP1 = .next t) ∧
      (∃ t, exec (.kdfAuth .media 0x01) stateQ = .next t) ∧ ∃ t, exec (.kdfAuth .control 0x01) stateP1 = .next t :=
  ⟨by decide +kernel, rfl, rfl, rfl, rfl, ⟨_, rfl⟩, ⟨_, rfl⟩, ⟨_, rfl⟩, ⟨_, rfl⟩, ⟨_, rfl⟩, ⟨_, rfl⟩⟩
theorem witness_DerivationFrame :
    (∃ t, exec (.kdfKey .control 0x03) stateP1 = .next t) ∧ (∃ t, exec (.kdfSalt .control 0x05) stateP1 = .next t) ∧
    (∃ t, exec (.kdfAuth .control 0x04) stateP1 = .next t) ∧ ∃ t, exec (.kdfAuth .control 0x04) State.reset = .next t :=
  ⟨⟨_, rfl⟩, ⟨_, rfl⟩, ⟨_, rfl⟩, ⟨_, rfl⟩⟩
theorem witness_CtrBuildsTheCounterBlock :
    stateP1.arch.ssv.get .control = true ∧ stateQ.arch.ssv.get .control = false := ⟨rfl, rfl⟩
theorem witness_CounterBlocksAreDistinct :
    buildCounter 0xFFFF 0 0 archP1.ss.media = buildCounter 0xFFFF 0 0 archP1.ss.media := rfl
/-- Two cores with salts that differ in one operand only. -/
theorem witness_CounterChangesAreConfined :
    let u := machine { archP1 with seq := 0x03e9 } []
    let v := machine { archP1 with roc := 1 } []
    let w := machine { archP1 with ssrc := 0 } []
    (stateP1.arch.seq ≠ u.arch.seq ∧ stateP1.arch.roc = u.arch.roc ∧ stateP1.arch.ssrc = u.arch.ssrc ∧
      stateP1.arch.ss.get .media = u.arch.ss.get .media ∧ stateP1.arch.ssv.get .media = true ∧ u.arch.ssv.get .media = true) ∧
    (stateP1.arch.seq = v.arch.seq ∧ stateP1.arch.ssrc = v.arch.ssrc ∧ v.arch.ssv.get .media = true) ∧
    (stateP1.arch.seq = w.arch.seq ∧ stateP1.arch.roc = w.arch.roc ∧ w.arch.ssv.get .media = true) ∧
    (∃ t, exec (.ctr .media) stateP1 = .next t) ∧ (∃ t, exec (.ctr .media) u = .next t) ∧
    (∃ t, exec (.ctr .media) v = .next t) ∧ ∃ t, exec (.ctr .media) w = .next t :=
  ⟨by decide +kernel, by decide +kernel, by decide +kernel, ⟨_, rfl⟩, ⟨_, rfl⟩, ⟨_, rfl⟩, ⟨_, rfl⟩⟩
/-- The three cases of `tag` and `verify`, at both sides of `MSGLEN = MSG_MAX`. -/
theorem witness_TagAndVerifyCases :
    (stateTight.arch.sav.get .media = true ∧ stateTight.arch.msglen.toNat ≤ stateTight.cfg.msgMax) ∧
    stateQ.arch.sav.get .media = false ∧
    (stateTooSmall.arch.sav.get .media = true ∧ stateTooSmall.cfg.msgMax < stateTooSmall.arch.msglen.toNat) := by
  decide +kernel
/-- A8's claim check as hypotheses: the tag computed is claimed by a core that is otherwise a different one. -/
theorem witness_ComputedTagIsAccepted :
    stateP1.arch.sav.get .media = true ∧ stateP1.arch.msglen.toNat ≤ stateP1.cfg.msgMax ∧
    ∃ t, exec (.tag .media) stateP1 = .next t ∧
      (machine { archP1 with seq := 0, claim := t.arch.tag } []).arch.claim = t.arch.tag ∧
      (machine { archP1 with seq := 0, claim := t.arch.tag } []).arch.sav.get .media = true :=
  ⟨rfl, by decide +kernel, _, rfl, rfl, rfl⟩
theorem witness_MismatchIsNotAnError :
    let s := machine { archP1 with claim := 0x8ffbf029b795e187f8a3 } []
    s.arch.sav.get .media = true ∧ s.arch.msglen.toNat ≤ s.cfg.msgMax ∧
    ((nextOf (exec (.tag .media) s)).map fun t => decide (s.arch.claim ≠ t.arch.tag)) = some true ∧
    (∃ u, exec (.verify .media) s = .next u) ∧
    ∃ u, exec (.verify .media) stateTooSmall = .next u :=
  ⟨rfl, by decide +kernel, by decide +kernel, ⟨_, rfl⟩, ⟨_, rfl⟩⟩
/-- Two cores whose buffers differ at offset `MSGLEN`. -/
theorem witness_BytesBeyondTheMessageAreNotRead :
    let u := machine { archP1 with msg := archP1.msg.write 32 0xFF } []
    u.arch.msg.read 32 ≠ stateP1.arch.msg.read 32 ∧ stateP1.cfg = u.cfg ∧ stateP1.arch.msglen = u.arch.msglen ∧
    (∀ off < stateP1.arch.msglen.toNat, stateP1.arch.msg.read off = u.arch.msg.read off) ∧
    stateP1.arch.sa.get .media = u.arch.sa.get .media := by
  decide +kernel
theorem witness_PerPacketFrame :
    (∃ t, exec (.ctr .media) stateP1 = .next t) ∧ (∃ t, exec (.tag .media) stateP1 = .next t) ∧
    (∃ t, exec (.verify .media) stateP1 = .next t) ∧ ∃ t, exec (.verify .media) stateQ = .next t :=
  ⟨⟨_, rfl⟩, ⟨_, rfl⟩, ⟨_, rfl⟩, ⟨_, rfl⟩⟩
theorem witness_ContextFrame :
    (∃ t, exec .nop stateP1 = .next t) ∧ (∃ t, exec .load stateP1 = .next t) ∧ (∃ t, exec .clear stateP1 = .next t) ∧
    ¬ State.reset.arch.lengthsRight ∧ ∃ t, exec .load State.reset = .next t :=
  ⟨⟨_, rfl⟩, ⟨_, rfl⟩, ⟨_, rfl⟩, by decide, ⟨_, rfl⟩⟩
theorem witness_FieldArithmetic : (0x53 : Byte) ≠ 0 ∧ Aes.mul 0x53 0xCA = 0x01 := by decide +kernel
theorem witness_SboxTableAgreesWithFormula : Aes.mul 0x53 0xCA = 0x01 ∧ Aes.sbox 0x53 = Aes.sbox 0x53 := by
  decide +kernel
theorem witness_DistinctLabelsGiveDistinctSessionKeys :
    stateQ.arch.mv = true ∧ ∃ t, exec (.kdfKey .media 0x03) stateQ = .next t ∧
      t.arch.sk.get .media = t.arch.sk.get .media :=
  ⟨rfl, _, rfl, rfl⟩
theorem witness_PaddingFillsWholeBlocks : (List.replicate 55 (0x61 : Byte)).length < 2 ^ 61 ∧ Sha1.padZeros 55 = 0 ∧
    Sha1.padZeros 56 = 63 ∧ Sha1.padZeros 0 = 55 := by decide +kernel
theorem witness_MessageScheduleRecurrence : (List.replicate 64 (0x61 : Byte)).length = 64 := by decide +kernel
theorem witness_HashChainsThroughWholeBlocks :
    (List.replicate 64 (0x61 : Byte)).length = 64 ∧ (List.replicate 128 (0x61 : Byte)).length = 64 * 2 := by
  decide +kernel
theorem witness_TagIsTheTruncatedHmacConstruction :
    (List.replicate 64 (0xAA : Byte)).length ≤ 64 ∧ ([] : List Byte).length ≤ 64 ∧
    ∃ k0 : List Byte, k0 = bytesOf archP1.sa.media ++ List.replicate (64 - (bytesOf archP1.sa.media).length) 0x00 :=
  ⟨by decide, by decide, _, rfl⟩
/-- Each code of 60_exceptions.md R190 is reached; an illegal word and a legal one. -/
theorem witness_ErrorCodesExactlyWhen :
    ((nextOf (exec .load State.reset)).map (·.arch.err) = some 0x01) ∧
    ((nextOf (exec .load (machine { archQ with slen := 13 } []))).map (·.arch.err) = some 0x02) ∧
    ((nextOf (exec (.kdfSalt .media 0) State.reset)).map (·.arch.err) = some 0x05) ∧
    ((nextOf (exec (.ctr .media) State.reset)).map (·.arch.err) = some 0x05) ∧
    ((nextOf (exec (.tag .media) State.reset)).map (·.arch.err) = some 0x05) ∧
    ((nextOf (exec (.verify .media) stateTooSmall)).map (·.arch.err) = some 0x04) ∧
    ((nextOf (step (machine archQ [commandEvent 0x00000003]))).map (·.arch.err) = some 0x06) ∧
    (nextOf (step (machine archQ [commandEvent 0x00000000]))).map (·.arch.err) = some 0x00 := by decide +kernel
theorem witness_ErringCommandsWriteOnlyTheTable :
    (∃ t, exec (.ctr .media) stateQ = .next t ∧ t.arch.err ≠ 0x00) ∧
    (∃ t, exec (.verify .media) stateTooSmall = .next t ∧ t.arch.err ≠ 0x00) ∧
    ∃ t, exec .load State.reset = .next t ∧ t.arch.err ≠ 0x00 :=
  ⟨⟨_, rfl, by decide⟩, ⟨_, rfl, by decide⟩, ⟨_, rfl, by decide⟩⟩
theorem witness_ErrIsOverwrittenAndNeverBlocks :
    (machine archQ [HostProgram.wr .seq (0 : BitVec 16)]).pending =
        HostEvent.port (.regWrite 0x30 ⟨16, 0⟩) :: [] ∧
      commandWord (.port (.regWrite 0x30 ⟨16, 0⟩)) = none ∧
      ∃ t, step (machine archQ [HostProgram.wr .seq (0 : BitVec 16)]) = .next t := ⟨rfl, by decide, _, rfl⟩
/-- The six cases of 20_memory.md R52, a transaction in none of them, and a command. -/
theorem witness_NakExactlyInTheSixCases :
    nakCase stateP1 (.regRead 0x03) ∧ nakCase stateP1 (.regWrite 0x01 ⟨8, 0⟩) ∧ nakCase stateP1 (.regRead 0x00) ∧
    nakCase stateQ (.regRead 0x20) ∧ nakCase stateP1 (.regWrite 0x11 ⟨16, 0⟩) ∧ nakCase stateP1 (.msgRead 2048) ∧
    ¬ nakCase stateP1 (.msgRead 2047) ∧ (commandWord (.port (.regWrite 0x00 ⟨32, 0⟩))).isSome ∧
    ∃ t, step (machine archP1 [.port (.msgRead 2048)]) = .next t := by
  refine ⟨.inl (by decide), .inr ⟨.err, by decide, .inl rfl⟩, .inr ⟨.cmd, by decide, .inl rfl⟩,
    .inr ⟨.sk0, by decide, .inr rfl⟩, .inr ⟨.klen, by decide, .inr (by decide)⟩, ?_, ?_, by decide, _, rfl⟩
  · show 2048 ≤ (2048 : Word).toNat
    decide
  · show ¬ 2048 ≤ (2047 : Word).toNat
    decide
theorem witness_RegisterReadsBackWhatWasWritten :
    RegName.access .kin = .readWrite ∧ (⟨256, 1⟩ : PortValue).width = RegName.width .kin ∧
    (machine archQ [.port (.regWrite (RegName.id .kin) ⟨256, 1⟩)]).pending =
      .port (.regWrite (RegName.id .kin) ⟨256, 1⟩) :: [] := ⟨rfl, rfl, rfl⟩
theorem witness_ReadsHaveNoSideEffect :
    ((machine archP1 [.port (.regRead 0x01)]).pending = .port (.regRead 0x01) :: [] ∧
      (machine archP1 [.port (.regRead 0x26)]).pending = .port (.regRead 0x26) :: [] ∧ archP1.sav.control = true) ∧
    (machine archP1 [.port (.regRead 0x20), .port (.regRead 0x20)]).pending =
      .port (.regRead 0x20) :: .port (.regRead 0x20) :: [] ∧
    (∃ t, step (machine archP1 [.port (.regRead 0x20), .port (.regRead 0x20)]) = .next t) ∧
    ∃ t, step (machine archP1 [.port (.msgRead 0), .port (.msgRead 0)]) = .next t :=
  ⟨⟨rfl, rfl, rfl⟩, rfl, ⟨_, rfl⟩, ⟨_, rfl⟩⟩
theorem witness_RepeatedCommandsChangeNothing :
    Instr.tag .media ≠ .load ∧ Instr.tag .media ≠ .clear ∧ ∃ t, exec (.tag .media) stateP1 = .next t :=
  ⟨by decide, by decide, _, rfl⟩
theorem witness_MessageWritesStoreOneByte :
    let s := machine archQ [.port (.msgWrite 2047 0xAB)]
    s.pending = .port (.msgWrite 2047 0xAB) :: [] ∧ (2047 : Word).toNat < s.cfg.msgMax ∧ s.arch.msg.wf ∧
    (machine archQ [.port (.msgRead 2047)]).pending = .port (.msgRead 2047) :: [] := by decide +kernel
theorem witness_CanonicalBuffersAreEqualWhenTheyReadAlike :
    ∃ m : Memory, m = [(0, 0x80), (2, 0x03)] ∧ m.wf ∧ ∀ off, m.read off = m.read off :=
  ⟨_, rfl, by decide, fun _ => rfl⟩
/-- A command and its end: it answers a next state with this `ERR`. -/
def endsWith (i : Instr) (s : State) (code : BitVec 8) : Bool :=
  (nextOf (exec i s)).map (·.arch.err) == some code
/-- The rows of the table of R23, each command on its success side and on its failure side, with flags set before. -/
theorem witness_FlagRows :
    let results := { archP1 with ctr := 1, ctrv := true, tag := 1, tagv := true, matched := true, matchv := true }
    let before := machine results []
    let unslotted := machine { results with ssv := ⟨false, true⟩, sav := ⟨false, true⟩ } []
    let tooLong := { before with cfg := { msgMax := 31 } }
    endsWith .load before 0x00 ∧ endsWith .load (machine { results with klen := 0 } []) 0x01 ∧
    endsWith (.ctr .media) before 0x00 ∧ endsWith (.ctr .media) unslotted 0x05 ∧
    endsWith (.tag .media) before 0x00 ∧ endsWith (.tag .media) unslotted 0x05 ∧
    endsWith (.tag .media) tooLong 0x04 ∧
    endsWith (.verify .media) before 0x00 ∧ endsWith (.verify .media) unslotted 0x05 ∧
    endsWith (.verify .media) tooLong 0x04 ∧
    endsWith (.kdfSalt .media 0x02) before 0x00 ∧ endsWith (.kdfAuth .media 0x01) State.reset 0x05 ∧
    endsWith .clear before 0x00 := by decide +kernel
/-- R23: "`MATCH`: every other `verify s`" clears it, here one whose tags differ. -/
theorem witness_FlagRows_unequal :
    let s := machine { archP1 with claim := 0x8ffbf029b795e187f8a3, matched := true, matchv := true } []
    ((nextOf (exec (.verify .media) s)).map fun t => (t.arch.err, t.arch.matchv, t.arch.matched)) =
      some (0x00, true, false) := by decide +kernel
theorem witness_FlagsViewAndItsWriters :
    (∃ t, exec (.kdfKey .media 0x00) stateQ = .next t) ∧
    (machine archP1 [.port (.regRead 0x42)]).pending = .port (.regRead 0x42) :: [] ∧
    commandWord (.port (.regRead 0x42)) = none ∧ (∃ t, step (machine archP1 [.port (.regRead 0x42)]) = .next t) ∧
    (machine archP1 [HostEvent.reset]).pending = HostEvent.reset :: [] := ⟨⟨_, rfl⟩, rfl, rfl, ⟨_, rfl⟩, rfl⟩
theorem witness_StepsAnswer :
    (∃ t, step (machine archQ [commandEvent 0x00000001]) = .next t) ∧
    (∃ t, step (machine archQ [commandEvent 0x00000010]) = .next t) ∧
    ∃ t, step (machine archQ [HostEvent.reset]) = .next t := ⟨⟨_, rfl⟩, ⟨_, rfl⟩, ⟨_, rfl⟩⟩
theorem witness_ResultsAreSnapshots :
    (machine { archP1 with ctr := 1, ctrv := true } [HostProgram.wr .seq (0 : BitVec 16)]).pending =
        HostEvent.port (.regWrite 0x30 ⟨16, 0⟩) :: [] ∧
    commandWord (.port (.regWrite 0x30 ⟨16, 0⟩)) = none ∧
    (∃ t, step (machine { archP1 with ctr := 1, ctrv := true } [HostProgram.wr .seq (0 : BitVec 16)]) = .next t) ∧
    Instr.kdfSalt .media 0x02 ∈ [Instr.kdfKey .media 0x02, .kdfSalt .media 0x02, .kdfAuth .media 0x02] ∧
    ∃ t, exec (.kdfSalt .media 0x02) stateP1 = .next t := ⟨rfl, by decide, ⟨_, rfl⟩, by decide, _, rfl⟩
theorem witness_StreamsDoNotInfluenceEachOther :
    Stream.control ≠ .media ∧
    Instr.tag .media ∈ [Instr.kdfKey .media 0, .kdfSalt .media 0, .kdfAuth .media 0, .ctr .media, .tag .media,
      .verify .media] ∧
    ∃ t, exec (.tag .media) stateP1 = .next t := ⟨by decide, by decide, _, rfl⟩

/-- A core with a Context and a derived session key and nothing else. -/
def archDerived : Arch := (Arch.reset.setMaster 1 2).setSk .media (sessionKey 1 2 0x00) true

/-- A state that meets the invariant with a loaded Context, a valid slot and a message byte; and it steps. -/
theorem witness_EveryStepKeepsTheStateRules :
    ({ machine archDerived [.port (.msgWrite 5 0xAB)] with cfg := { msgMax := 6 } } : State).Inv ∧
    ∃ t, step { machine archDerived [.port (.msgWrite 5 0xAB)] with cfg := { msgMax := 6 } } = .next t := by
  refine ⟨⟨by decide, ⟨?_, ?_, ?_, ?_, ?_, ?_, ?_, ?_⟩, by simp [machine, archDerived, Arch.reset, Memory.wf],
    by simp [machine, archDerived, Arch.reset]⟩, _, rfl⟩
  · simp [machine, archDerived, Arch.reset]
  · intro b; simp [machine, archDerived]
  · simp [machine, archDerived]
  · simp [machine, archDerived]
  · intro b; cases b <;> simp [machine, archDerived, Arch.reset, Bank.get, Bank.set]
  · simp [machine, archDerived, Arch.reset]
  · simp [machine, archDerived, Arch.reset, writtenCodes]
  · intro b
    cases b
    · refine ⟨fun _ => ⟨0x00, ?_⟩, ?_, ?_⟩ <;> simp [machine, archDerived, Arch.reset, Bank.get, Bank.set]
    · simp [machine, archDerived, Arch.reset, Bank.get, Bank.set]
theorem witness_ResetSatisfiesTheStateRules :
    Config.Legal { msgMax := 1 } ∧ Config.Legal { msgMax := 2 ^ 32 - 1 } ∧ Config.vectors.Legal := by decide
theorem witness_ResetEventEqualsClear : (machine archP1 [HostEvent.reset]).pending = HostEvent.reset :: [] := rfl

end Sys2Proof.Tests
end

section
/-! Settling the scope statements (00_scope.md): the idle step, and that every command and every step ends. -/

namespace Sys2Proof.Machine

/-! ### What a step answers, case by case -/

theorem step_of_idle {s : State} (hp : s.pending = []) : step s = .next s := by
  simp only [step, hp]

theorem step_of_not_command {s : State} {e : HostEvent} {rest : List HostEvent} (hp : s.pending = e :: rest)
    (hc : commandWord e = none) : step s = .next (serve e (s.withPending rest)) := by
  simp only [step, hp, hc]

theorem step_of_illegal {s : State} {e : HostEvent} {rest : List HostEvent} {w : Word} {r : DecodeReject}
    (hp : s.pending = e :: rest) (hc : commandWord e = some w) (hd : decodeWord w = .error r) :
    step s = acknowledge (execIllegal (s.withPending rest)) := by
  simp only [step, hp, hc, hd]

theorem step_of_command {s : State} {e : HostEvent} {rest : List HostEvent} {w : Word} {i : Instr}
    (hp : s.pending = e :: rest) (hc : commandWord e = some w) (hd : decodeWord w = .ok i) :
    step s = acknowledge (exec i (s.withPending rest)) := by
  simp only [step, hp, hc, hd]

/-! ### Every command and every step ends in a next state -/

/-- The two ways a command ends, read at `ERR`: `complete` writes `OK`, `raise` the code of its error. -/
theorem Ends.exists_next {s : State} {o : Host.Outcome State Fault Refusal} (h : Ends s o) :
    ∃ t, o = .next t ∧
      (t.arch.err = okCode ∨ ∃ e : ErrorKind, e ≠ .cipherInitializationFailure ∧ t.arch.err = e.code) := by
  cases h with
  | completes f => exact ⟨_, complete_next f s, .inl (Arch.setErr_err ..)⟩
  | errs x e he _ => exact ⟨_, raise_next x e s, .inr ⟨e, he, Arch.setErr_err ..⟩⟩

theorem execIllegal_exists_next (s : State) :
    ∃ t, execIllegal s = .next t ∧ t.arch.err = ErrorKind.illegalCommand.code :=
  ⟨_, raise_next .nothing .illegalCommand s, Arch.setErr_err ..⟩

/-- Nothing stops the machine (00_scope.md R9). -/
theorem step_exists_next (s : State) : ∃ t, step s = .next t := by
  cases hp : s.pending with
  | nil => exact ⟨s, step_of_idle hp⟩
  | cons e rest =>
    cases hc : commandWord e with
    | none => exact ⟨_, step_of_not_command hp hc⟩
    | some w =>
      cases hd : decodeWord w with
      | error r =>
        obtain ⟨t, ht, -⟩ := execIllegal_exists_next (s.withPending rest)
        exact ⟨_, by rw [step_of_illegal hp hc hd, ht, acknowledge_next]⟩
      | ok i =>
        obtain ⟨t, ht, -⟩ := (exec_ends i (s.withPending rest)).exists_next
        exact ⟨_, by rw [step_of_command hp hc hd, ht, acknowledge_next]⟩

/-! ### The statements -/

/-- Settles O7: a command only completes or raises a named error (`exec_ends`), and a step is one of the four cases
above. -/
theorem everyCommandEndsOkOrWithANamedError : Obligations.EveryCommandEndsOkOrWithANamedError :=
  ⟨fun i s => (exec_ends i s).exists_next, execIllegal_exists_next, step_exists_next⟩

/-- Settles O6: the step's case of an empty list of pending events. -/
theorem idleStepChangesNothing : Obligations.IdleStepChangesNothing := fun _ => step_of_idle

end Sys2Proof.Machine
end

section
/-! Settling the port's statements (20_memory.md): which transactions are refused, what a register write and a write to
`MSG` store, what a read answers, and that a repeated command writes the same values again. -/

namespace Sys2Proof.Machine

/-! ### The registers of the map -/

-- Elaborated in line: what follows then waits for the tests above instead of adding to the memory they hold.
set_option Elab.async false in
@[simp] theorem ofId_id (r : RegName) : RegName.ofId r.id = some r := by cases r <;> rfl

/-- What a register holds, whatever its valid flag says (20_memory.md R63). `CMD` "stores nothing" (10_state.md R21). -/
def heldValue (a : Arch) : RegName → PortValue
  | .cmd => ⟨32, 0⟩
  | .err => ⟨8, a.err⟩
  | .flags => ⟨16, a.flags⟩
  | .kin => ⟨256, a.kin⟩
  | .klen => ⟨8, a.klen⟩
  | .sin => ⟨256, a.sin⟩
  | .slen => ⟨8, a.slen⟩
  | .mk => ⟨128, a.mk⟩
  | .ms => ⟨112, a.ms⟩
  | .sk0 => ⟨128, a.sk.media⟩
  | .ss0 => ⟨112, a.ss.media⟩
  | .sa0 => ⟨160, a.sa.media⟩
  | .sk1 => ⟨128, a.sk.control⟩
  | .ss1 => ⟨112, a.ss.control⟩
  | .sa1 => ⟨160, a.sa.control⟩
  | .seq => ⟨16, a.seq⟩
  | .roc => ⟨32, a.roc⟩
  | .ssrc => ⟨32, a.ssrc⟩
  | .ctr => ⟨128, a.ctr⟩
  | .msglen => ⟨32, a.msglen⟩
  | .claim => ⟨80, a.claim⟩
  | .tag => ⟨80, a.tag⟩

theorem eq_cmd_of_writeOnly {r : RegName} (hr : r.access = .writeOnly) : r = .cmd := by
  cases r <;> simp [RegName.access] at hr ⊢

/-- Only `CMD` is write-only (R63); every other register answers what it holds, when its flag is 1 (R52 cases 3, 4). -/
theorem readReg_eq_whenValid {r : RegName} (a : Arch) (hr : r.access ≠ .writeOnly) :
    readReg r a = whenValid (validFlag a r) (heldValue a r) := by
  cases r with
  | cmd => exact absurd rfl hr
  | _ => rfl

theorem readReg_eq_none_iff (r : RegName) (a : Arch) :
    readReg r a = none ↔ r.access = .writeOnly ∨ validFlag a r = false := by
  by_cases hr : r.access = .writeOnly
  · have hnone : readReg r a = none := by rw [eq_cmd_of_writeOnly hr]; rfl
    simp [hr, hnone]
  · simp [readReg_eq_whenValid a hr, hr, whenValid]

/-- The registers that take a write are the read-write ones (R52 case 2; a write of `CMD` is a command). -/
theorem storeReg_eq_none_iff (r : RegName) (v : PortValue) (a : Arch) :
    storeReg r v a = none ↔ r.access ≠ .readWrite := by
  cases r <;> simp [storeReg, RegName.access]

/-- A write that is no command is not taken exactly in the cases 2 and 5 of R52. -/
theorem writeReg_eq_none_iff {r : RegName} {v : PortValue} (a : Arch) (hr : r = .cmd → v.width ≠ r.width) :
    writeReg r v a = none ↔ r.access = .readOnly ∨ v.width ≠ r.width := by
  unfold writeReg
  split
  · rename_i hw
    rw [storeReg_eq_none_iff]
    cases hacc : r.access with
    | writeOnly => exact absurd hw (hr (eq_cmd_of_writeOnly hacc))
    | readOnly => simp
    | readWrite => simp [hw]
  · rename_i hw
    simp [hw]

/-! ### A register reads back what it was given -/

theorem PortValue.mk_setWidth {v : PortValue} {w : Nat} (h : v.width = w) :
    (⟨w, v.bits.setWidth w⟩ : PortValue) = v := by
  subst h
  simp

/-- The value reads back whole (20_memory.md R53). -/
theorem readReg_storeReg_same {r : RegName} {v : PortValue} {a a' : Arch} (hw : v.width = r.width)
    (h : storeReg r v a = some a') : readReg r a' = some v := by
  cases r <;> cases h <;> exact congrArg some (PortValue.mk_setWidth hw)

/-- Every other register, `FLAGS` included, reads as before. -/
theorem readReg_storeReg_other {r q : RegName} {v : PortValue} {a a' : Arch} (hq : q ≠ r)
    (h : storeReg r v a = some a') : readReg q a' = readReg q a := by
  cases r <;> cases h <;> cases q <;> simp [readReg, Arch.flags, Arch.flagBits] at hq ⊢

theorem storeReg_msg {r : RegName} {v : PortValue} {a a' : Arch} (h : storeReg r v a = some a') : a'.msg = a.msg := by
  cases r <;> cases h <;> rfl

theorem exists_storeReg_of_readWrite {r : RegName} (v : PortValue) (a : Arch) (hr : r.access = .readWrite) :
    ∃ a', storeReg r v a = some a' :=
  Option.ne_none_iff_exists'.mp fun h => (storeReg_eq_none_iff r v a).mp h hr

/-! ### What a step that serves a port event answers -/

theorem step_regWrite {s : State} {rest : List HostEvent} {id : BitVec 8} {r : RegName} {v : PortValue} {a : Arch}
    (hp : s.pending = .port (.regWrite id v) :: rest) (hr : RegName.ofId id = some r) (hcmd : r ≠ .cmd)
    (hw : writeReg r v s.arch = some a) :
    step s = .next (((s.withPending rest).mapArch fun _ => a).answered (.ack none)) := by
  rw [step_of_not_command hp (by simp [commandWord, hr, hcmd])]
  simp [serve, serveRegWrite, hr, hw]

theorem step_msgWrite {s : State} {rest : List HostEvent} {off : Word} {b : Byte}
    (hp : s.pending = .port (.msgWrite off b) :: rest) (ho : off.toNat < s.cfg.msgMax) :
    step s = .next (((s.withPending rest).mapArch fun a =>
      { a with msg := a.msg.write off.toNat b }).answered (.ack none)) := by
  rw [step_of_not_command hp rfl]
  simp [serve, serveMsgWrite, ho]

theorem step_msgRead {s : State} {rest : List HostEvent} {off : Word}
    (hp : s.pending = .port (.msgRead off) :: rest) (ho : off.toNat < s.cfg.msgMax) :
    step s = .next ((s.withPending rest).answered (.ack (some ⟨8, s.arch.msg.read off.toNat⟩))) := by
  rw [step_of_not_command hp rfl]
  simp [serve, serveMsgRead, ho]

theorem serve_read_answers {x : Transaction} (hx : (∃ id, x = .regRead id) ∨ ∃ off, x = .msgRead off) (a : Arch)
    (c : Config) :
    ∃ y, ∀ s : State, s.arch = a → s.cfg = c → serve (.port x) s = s.answered y := by
  obtain ⟨id, rfl⟩ | ⟨off, rfl⟩ := hx
  · cases hv : (RegName.ofId id).bind fun r => readReg r a with
    | none => exact ⟨.nak, fun s ha _ => by simp [serve, serveRegRead, refuse, ha, hv]⟩
    | some v => exact ⟨.ack (some v), fun s ha _ => by simp [serve, serveRegRead, ha, hv]⟩
  · by_cases ho : off.toNat < c.msgMax
    · exact ⟨.ack (some ⟨8, a.msg.read off.toNat⟩), fun s ha hc => by simp [serve, serveMsgRead, ha, hc, ho]⟩
    · exact ⟨.nak, fun s _ hc => by simp [serve, serveMsgRead, refuse, hc, ho]⟩

theorem commandWord_read {x : Transaction} (hx : (∃ id, x = .regRead id) ∨ ∃ off, x = .msgRead off) :
    commandWord (.port x) = none := by
  obtain ⟨id, rfl⟩ | ⟨off, rfl⟩ := hx <;> rfl

/-- The step that serves a read leaves its answer and nothing else, and the answer is made of the core and `MSG_MAX`
alone (20_memory.md R55). -/
theorem step_read_answers {x : Transaction} (hx : (∃ id, x = .regRead id) ∨ ∃ off, x = .msgRead off) (a : Arch)
    (c : Config) :
    ∃ y, ∀ (s : State) (rest : List HostEvent), s.arch = a → s.cfg = c → s.pending = .port x :: rest →
      step s = .next ((s.withPending rest).answered y) := by
  obtain ⟨y, hy⟩ := serve_read_answers hx a c
  refine ⟨y, fun s rest ha hc hp => ?_⟩
  rw [step_of_not_command hp (commandWord_read hx), hy (s.withPending rest) ha hc]

/-- A command, legal or not, ends with `ACK` (R52) and touches nothing else outside the core. -/
theorem step_command_frame {s t : State} {e : HostEvent} {rest : List HostEvent} {w : Word}
    (hp : s.pending = e :: rest) (hc : commandWord e = some w) (h : step s = .next t) :
    t.cfg = s.cfg ∧ t.pending = rest ∧ t.answers = .ack none :: s.answers := by
  cases hd : decodeWord w with
  | error r =>
    rw [step_of_illegal hp hc hd, execIllegal, raise_next] at h
    cases h
    exact ⟨rfl, rfl, rfl⟩
  | ok i =>
    rw [step_of_command hp hc hd] at h
    obtain ⟨u, hu, rfl⟩ := acknowledge_eq_next h
    obtain ⟨hcfg, hpend, hans⟩ := exec_cfg_pending_answers hu
    simp [hcfg, hpend, hans]

/-! ### The six refusals -/

/-- No command write is among the six cases (R52): `CMD` is a register, it takes writes, and the width is its own. -/
theorem not_nakCase_of_commandWord {s : State} {x : Transaction} (h : (commandWord (.port x)).isSome) :
    ¬ nakCase s x := by
  cases x with
  | regWrite id v =>
    by_cases hcmd : RegName.ofId id = some .cmd ∧ v.width = RegName.cmd.width
    · simp [nakCase, hcmd, RegName.access]
    · simp [commandWord, hcmd] at h
  | regRead id => simp at h
  | msgWrite off b => simp at h
  | msgRead off => simp at h

/-- The port's rule for a transaction that is no command, with `t` what serving it leaves: refused in one of the six
cases (20_memory.md R52), answered `ACK` in none of them. -/
def ServedAs (x : Transaction) (s t : State) : Prop :=
  (nakCase s x ∧ t = refuse s) ∨ (¬ nakCase s x ∧ ∃ f d, t = (s.mapArch f).answered (.ack d))

theorem serveRegWrite_servedAs {id : BitVec 8} {v : PortValue} (s : State)
    (hc : commandWord (.port (.regWrite id v)) = none) : ServedAs (.regWrite id v) s (serveRegWrite id v s) := by
  unfold serveRegWrite
  cases hr : RegName.ofId id with
  | none => exact .inl ⟨.inl hr, rfl⟩
  | some r =>
    have hcmd : r = .cmd → v.width ≠ r.width := by
      rintro rfl hw
      simp [commandWord, hr, hw] at hc
    have hnak : nakCase s (.regWrite id v) ↔ writeReg r v s.arch = none := by
      simp [nakCase, hr, writeReg_eq_none_iff s.arch hcmd]
    rw [ServedAs, hnak, Option.bind_some]
    cases writeReg r v s.arch with
    | none => exact .inl ⟨rfl, rfl⟩
    | some a => exact .inr ⟨nofun, fun _ => a, none, rfl⟩

theorem serveRegRead_servedAs (id : BitVec 8) (s : State) : ServedAs (.regRead id) s (serveRegRead id s) := by
  unfold serveRegRead
  cases hr : RegName.ofId id with
  | none => exact .inl ⟨.inl hr, rfl⟩
  | some r =>
    have hnak : nakCase s (.regRead id) ↔ readReg r s.arch = none := by
      simp [nakCase, hr, readReg_eq_none_iff]
    rw [ServedAs, hnak, Option.bind_some]
    cases readReg r s.arch with
    | none => exact .inl ⟨rfl, rfl⟩
    | some v => exact .inr ⟨nofun, fun a => a, some v, rfl⟩

/-- Each kind of transaction is refused by its own cases of R52, and by no other test. -/
theorem serve_servedAs {x : Transaction} (s : State) (hc : commandWord (.port x) = none) :
    ServedAs x s (serve (.port x) s) := by
  cases x with
  | regWrite id v => exact serveRegWrite_servedAs s hc
  | regRead id => exact serveRegRead_servedAs id s
  | msgWrite off b =>
    rw [serve, serveMsgWrite]
    split
    · exact .inr ⟨not_le.mpr ‹_›, _, none, rfl⟩
    · exact .inl ⟨not_lt.mp ‹_›, rfl⟩
  | msgRead off =>
    rw [serve, serveMsgRead]
    split
    · exact .inr ⟨not_le.mpr ‹_›, id, _, rfl⟩
    · exact .inl ⟨not_lt.mp ‹_›, rfl⟩

/-- Whether a transaction is refused depends on the core and `MSG_MAX` alone. -/
theorem nakCase_withPending (rest : List HostEvent) (s : State) (x : Transaction) :
    nakCase (s.withPending rest) x ↔ nakCase s x := by
  cases x <;> rfl

/-! ### Repeated commands -/

/-- An error entered again, with the same code and the same extra writes, changes nothing (60_exceptions.md R193). -/
theorem raise_repeat {x : ErrorWrites} {e : ErrorKind} {s t : State} (h : raise x e s = .next t) :
    raise x e t = .next t := by
  cases raise_eq_next h
  cases x <;> rfl

/-- Writes of a command that, done again after its last act, leave the core as it is. -/
def Repeatable (f : Arch → Arch) : Prop := ∀ a, (f ((f a).setErr okCode)).setErr okCode = (f a).setErr okCode

theorem complete_repeat {f : Arch → Arch} {s t : State} (hf : Repeatable f) (h : complete f s = .next t) :
    complete f t = .next t := by
  cases complete_eq_next h
  rw [complete_next, hf]

/-- A command that first tests the state: an error where the test names one, else its writes `f` (60_exceptions.md
R192, R193). -/
def guarded (test : State → Option ErrorKind) (x : ErrorWrites) (f : Arch → Arch) (s : State) :
    Host.Outcome State Fault Refusal :=
  match test s with
  | some e => raise x e s
  | none => complete f s

/-- Neither way out of the command changes what its test says. -/
def TestKept (test : State → Option ErrorKind) (x : ErrorWrites) (f : Arch → Arch) : Prop :=
  ∀ s : State, test { s with arch := (f s.arch).setErr okCode } = test s ∧
    ∀ e : ErrorKind, test { s with arch := (x.apply s.arch).setErr e.code } = test s

theorem guarded_repeat {test : State → Option ErrorKind} {x : ErrorWrites} {f : Arch → Arch} {s t : State}
    (hf : Repeatable f) (hk : TestKept test x f) (h : guarded test x f s = .next t) : guarded test x f t = .next t := by
  unfold guarded at h ⊢
  cases hs : test s with
  | none =>
    rw [hs] at h
    have ht : test t = none := by rw [complete_eq_next h, (hk s).1, hs]
    rw [ht]
    exact complete_repeat hf h
  | some e =>
    rw [hs] at h
    have ht : test t = some e := by rw [raise_eq_next h, (hk s).2, hs]
    rw [ht]
    exact raise_repeat h

/-- The one test of the derivations and of `ctr s`: a flag `g` of the core (41_kdf.md R102 to R104, 42_counter.md
R121). -/
def loadedTest (g : Arch → Bool) (s : State) : Option ErrorKind := if g s.arch then none else some .notLoaded

/-- The tests of `tag s` and `verify s`, in their order (43_authenticator.md R131, R133). -/
def authTest (b : Stream) (s : State) : Option ErrorKind :=
  if !s.arch.sav.get b then some .notLoaded
  else if s.messageTooLong then some .authenticationComputationFailure
  else none

theorem loaded_eq_guarded (g : Arch → Bool) (f : Arch → Arch) (x : ErrorWrites) (s : State) :
    (if g s.arch then complete f s else raise x .notLoaded s) = guarded (loadedTest g) x f s := by
  unfold guarded loadedTest
  cases g s.arch <;> rfl

theorem auth_eq_guarded (b : Stream) (f : Arch → Arch) (x : ErrorWrites) (s : State) :
    (if !s.arch.sav.get b then raise x .notLoaded s
      else if s.messageTooLong then raise x .authenticationComputationFailure s
      else complete f s) = guarded (authTest b) x f s := by
  unfold guarded authTest
  cases s.arch.sav.get b with
  | false => rfl
  | true => cases s.messageTooLong <;> rfl

theorem execKdfKey_eq_guarded (b : Stream) (l : Byte) (s : State) : execKdfKey b l s =
    guarded (loadedTest (·.mv)) .nothing (fun a => a.setSk b (sessionKey a.mk a.ms l) true) s :=
  loaded_eq_guarded ..

theorem execKdfSalt_eq_guarded (b : Stream) (l : Byte) (s : State) : execKdfSalt b l s =
    guarded (loadedTest (·.mv)) .nothing (fun a => a.setSs b (sessionSalt a.mk a.ms l) true) s :=
  loaded_eq_guarded ..

theorem execKdfAuth_eq_guarded (b : Stream) (l : Byte) (s : State) : execKdfAuth b l s =
    guarded (loadedTest (·.mv)) .nothing (fun a => a.setSa b (sessionAuthKey a.mk a.ms l) true) s :=
  loaded_eq_guarded ..

theorem execCtr_eq_guarded (b : Stream) (s : State) : execCtr b s =
    guarded (loadedTest (·.ssv.get b)) .ctr
      (fun a => a.setCtr (buildCounter a.seq a.roc a.ssrc (a.ss.get b)) true) s :=
  loaded_eq_guarded (·.ssv.get b) _ .ctr s

theorem execTag_eq_guarded (b : Stream) (s : State) : execTag b s =
    guarded (authTest b) .tag (fun a => a.setTag (a.expectedTag b) true) s :=
  auth_eq_guarded ..

theorem execVerify_eq_guarded (b : Stream) (s : State) : execVerify b s =
    guarded (authTest b) .verdict (fun a => a.setMatch (tagsEqual (a.expectedTag b) a.claim) true) s :=
  auth_eq_guarded ..

@[simp] theorem ErrorWrites.apply_mv (x : ErrorWrites) (a : Arch) : (x.apply a).mv = a.mv := by cases x <;> rfl
@[simp] theorem ErrorWrites.apply_ssv (x : ErrorWrites) (a : Arch) : (x.apply a).ssv = a.ssv := by cases x <;> rfl
@[simp] theorem ErrorWrites.apply_sav (x : ErrorWrites) (a : Arch) : (x.apply a).sav = a.sav := by cases x <;> rfl
@[simp] theorem ErrorWrites.apply_msglen (x : ErrorWrites) (a : Arch) : (x.apply a).msglen = a.msglen := by
  cases x <;> rfl

theorem testKept_mv {x : ErrorWrites} {f : Arch → Arch} (hf : ∀ a, (f a).mv = a.mv) :
    TestKept (loadedTest (·.mv)) x f :=
  fun s => ⟨by simp [loadedTest, hf], fun e => by simp [loadedTest]⟩

theorem testKept_ssv {x : ErrorWrites} {f : Arch → Arch} (b : Stream) (hf : ∀ a, (f a).ssv = a.ssv) :
    TestKept (loadedTest (·.ssv.get b)) x f :=
  fun s => ⟨by simp [loadedTest, hf], fun e => by simp [loadedTest]⟩

theorem testKept_auth {x : ErrorWrites} {f : Arch → Arch} (b : Stream) (hsav : ∀ a, (f a).sav = a.sav)
    (hlen : ∀ a, (f a).msglen = a.msglen) : TestKept (authTest b) x f :=
  fun s => ⟨by simp [authTest, State.messageTooLong, hsav, hlen], fun e => by simp [authTest, State.messageTooLong]⟩

/-! The writes of the six commands are made of operands that they leave alone. -/

theorem repeatable_kdfKey (b : Stream) (l : Byte) :
    Repeatable fun a => a.setSk b (sessionKey a.mk a.ms l) true := fun a => by
  simp [Arch.setSk_setErr]

theorem repeatable_kdfSalt (b : Stream) (l : Byte) :
    Repeatable fun a => a.setSs b (sessionSalt a.mk a.ms l) true := fun a => by
  simp [Arch.setSs_setErr]

theorem repeatable_kdfAuth (b : Stream) (l : Byte) :
    Repeatable fun a => a.setSa b (sessionAuthKey a.mk a.ms l) true := fun a => by
  simp [Arch.setSa_setErr]

theorem repeatable_ctr (b : Stream) :
    Repeatable fun a => a.setCtr (buildCounter a.seq a.roc a.ssrc (a.ss.get b)) true := fun a => by
  simp [Arch.setCtr_setErr]

theorem repeatable_tag (b : Stream) : Repeatable fun a => a.setTag (a.expectedTag b) true := fun a => by
  simp [Arch.expectedTag, Arch.message, Arch.setTag_setErr]

theorem repeatable_verify (b : Stream) :
    Repeatable fun a => a.setMatch (tagsEqual (a.expectedTag b) a.claim) true := fun a => by
  simp [Arch.expectedTag, Arch.message, Arch.setMatch_setErr]

/-! ### The statements -/

/-- Settles O45: a command write is acknowledged and in none of the cases; every other transaction is
`ServedAs` the port's rule says. -/
theorem nakExactlyInTheSixCases : Obligations.NakExactlyInTheSixCases := by
  intro s x rest t hp hstep
  refine and_assoc.mp ⟨?_, not_nakCase_of_commandWord⟩
  cases hc : commandWord (.port x) with
  | some w =>
    obtain ⟨-, hpend, hans⟩ := step_command_frame hp hc hstep
    have hnot : ¬ nakCase s x := not_nakCase_of_commandWord (by simp [hc])
    exact ⟨fun h => absurd h hnot, fun _ => ⟨hpend, none, hans⟩⟩
  | none =>
    have hserved := serve_servedAs (s.withPending rest) hc
    rw [step_of_not_command hp hc] at hstep
    rw [Host.Outcome.next.inj hstep, ServedAs, nakCase_withPending] at hserved
    obtain ⟨hnak, rfl⟩ | ⟨hnot, f, d, rfl⟩ := hserved
    · exact ⟨fun _ => rfl, fun hnot => absurd hnak hnot⟩
    · exact ⟨fun hnak => absurd hnak hnot, fun _ => ⟨rfl, d, rfl⟩⟩

/-- Settles O46: a read-write register takes a value of its width (`exists_storeReg_of_readWrite`), and the lemmas
about `storeReg` say what every read finds then. -/
theorem registerReadsBackWhatWasWritten : Obligations.RegisterReadsBackWhatWasWritten := by
  intro r v a hr hw
  obtain ⟨a', hstore⟩ := exists_storeReg_of_readWrite v a hr
  have hwrite : writeReg r v a = some a' := by rw [writeReg, if_pos hw, hstore]
  refine ⟨a', hwrite, readReg_storeReg_same hw hstore, fun q hq => readReg_storeReg_other hq hstore,
    fun off => by rw [storeReg_msg hstore], ?_⟩
  rintro s rest rfl hp
  have hcmd : r ≠ .cmd := by
    rintro rfl
    cases hr
  exact step_regWrite hp (ofId_id r) hcmd hwrite

/-- A register of the map as the row of `ReadsHaveNoSideEffect` shows it: number, readable now, value. -/
def readRow (a : Arch) (r : RegName) : BitVec 8 × Bool × PortValue := (r.id, validFlag a r, heldValue a r)

/-- The registers that can be read at all: all but `CMD` (R63). -/
theorem access_of_mem_tail {r : RegName} (h : r ∈ RegName.all.tail) : r.access ≠ .writeOnly := by
  revert r
  decide

/-- Settles O47: the rows are the registers after `CMD`, each read by `step_regRead`; and a read's answer is the same
wherever the core and `MSG_MAX` are (`step_read_answers`). -/
theorem readsHaveNoSideEffect : Obligations.ReadsHaveNoSideEffect := by
  constructor
  · intro s rest id readable v hrow hreadable hp
    obtain ⟨r, hr, heq⟩ : ∃ r ∈ RegName.all.tail, readRow s.arch r = (id, readable, v) := List.mem_map.mp hrow
    obtain ⟨rfl, hflag, rfl⟩ := by simpa only [readRow, Prod.mk.injEq] using heq
    have hread : readReg r s.arch = some (heldValue s.arch r) := by
      rw [readReg_eq_whenValid s.arch (access_of_mem_tail hr), hflag, hreadable]
      rfl
    exact step_regRead hp (ofId_id r) hread
  · intro s x rest t hx hp hstep
    obtain ⟨y, hy⟩ := step_read_answers hx s.arch s.cfg
    rw [hy s _ rfl rfl hp] at hstep
    cases hstep
    exact ⟨rfl, rfl, y, rfl, hy _ rest rfl rfl rfl⟩

/-- Settles O48: each of the commands repeats its writes, and its test says the same before and after them. -/
theorem repeatedCommandsChangeNothing : Obligations.RepeatedCommandsChangeNothing := by
  intro i s t hload hclear h
  cases i with
  | nop => exact complete_repeat (f := id) (fun _ => rfl) h
  | load => exact absurd rfl hload
  | clear => exact absurd rfl hclear
  | kdfKey b l =>
    rw [exec, execKdfKey_eq_guarded] at h ⊢
    exact guarded_repeat (repeatable_kdfKey b l) (testKept_mv fun _ => Arch.setSk_mv ..) h
  | kdfSalt b l =>
    rw [exec, execKdfSalt_eq_guarded] at h ⊢
    exact guarded_repeat (repeatable_kdfSalt b l) (testKept_mv fun _ => Arch.setSs_mv ..) h
  | kdfAuth b l =>
    rw [exec, execKdfAuth_eq_guarded] at h ⊢
    exact guarded_repeat (repeatable_kdfAuth b l) (testKept_mv fun _ => Arch.setSa_mv ..) h
  | ctr b =>
    rw [exec, execCtr_eq_guarded] at h ⊢
    exact guarded_repeat (repeatable_ctr b) (testKept_ssv b fun _ => Arch.setCtr_ssv ..) h
  | tag b =>
    rw [exec, execTag_eq_guarded] at h ⊢
    exact guarded_repeat (repeatable_tag b)
      (testKept_auth b (fun _ => Arch.setTag_sav ..) fun _ => Arch.setTag_msglen ..) h
  | verify b =>
    rw [exec, execVerify_eq_guarded] at h ⊢
    exact guarded_repeat (repeatable_verify b)
      (testKept_auth b (fun _ => Arch.setMatch_sav ..) fun _ => Arch.setMatch_msglen ..) h

/-- Settles O49: the buffer after the write is `Memory.write`, and the laws of the buffer say how it reads. -/
theorem messageWritesStoreOneByte : Obligations.MessageWritesStoreOneByte := by
  refine ⟨fun s off b rest hp ho hwf => ?_, fun s off rest hp ho => step_msgRead hp ho⟩
  exact ⟨s.arch.msg.write off.toNat b, Memory.write_wf hwf, Memory.read_write_same hwf _ _,
    fun a ha => Memory.read_write_other _ _ ha, step_msgWrite hp ho⟩

end Sys2Proof.Machine
end

section
/-! Settling the context commands' statements (40_context.md): what `nop`, `load` and `clear` write and leave alone, which
bytes `load` reads, and that a step with a legal word next runs the word's command. -/

namespace Sys2Proof.Machine

/-! ### Bytes of a byte string -/

/-- The bytes of a prefix are the first bytes of the string (00_scope.md R7). -/
theorem byteAt_leftmost {w n i : Nat} (b : BitVec w) (hn : n ≤ w) (hi : 8 * (i + 1) ≤ n) :
    byteAt (leftmost n b) i = byteAt b i := by
  refine BitVec.eq_of_getElem_eq fun j hj => ?_
  have hpos : w - n + (n - 8 * (i + 1) + j) = w - 8 * (i + 1) + j := by omega
  have hlt : n - 8 * (i + 1) + j < n := by omega
  simp only [byteAt, leftmost, BitVec.getElem_extractLsb', BitVec.getLsbD_extractLsb', hpos, hlt, decide_true,
    Bool.true_and]

/-- Bit `j` of a string of `n` bytes stands in byte `n - 1 - j / 8`. -/
theorem getLsbD_byteAt {w n j : Nat} (b : BitVec w) (hw : w = 8 * n) (hj : j < w) :
    (byteAt b (n - 1 - j / 8)).getLsbD (j % 8) = b.getLsbD j := by
  have hpos : w - 8 * (n - 1 - j / 8 + 1) + j % 8 = j := by omega
  have hlt : j % 8 < 8 := Nat.mod_lt j (by decide)
  rw [byteAt, BitVec.getLsbD_extractLsb', hpos, decide_eq_true hlt, Bool.true_and]

/-- A byte string is determined by its bytes (00_scope.md R7). -/
theorem eq_of_byteAt_eq {w n : Nat} {x y : BitVec w} (hw : w = 8 * n) (h : ∀ i < n, byteAt x i = byteAt y i) :
    x = y := by
  refine BitVec.eq_of_getLsbD_eq fun j hj => ?_
  have hbyte : n - 1 - j / 8 < n := by omega
  rw [← getLsbD_byteAt x hw hj, ← getLsbD_byteAt y hw hj, h _ hbyte]

/-- A prefix of `n` bytes depends on those bytes alone. -/
theorem leftmost_congr {w m n : Nat} {x y : BitVec w} (hm : m = 8 * n) (hw : m ≤ w)
    (h : ∀ i < n, byteAt x i = byteAt y i) : leftmost m x = leftmost m y :=
  eq_of_byteAt_eq hm fun i hi => by
    rw [byteAt_leftmost x hw (by omega), byteAt_leftmost y hw (by omega), h i hi]

/-! ### The ways `load` ends -/

theorem guarded_of_none {test : State → Option ErrorKind} (x : ErrorWrites) (f : Arch → Arch) {s : State}
    (h : test s = none) : guarded test x f s = complete f s := by
  rw [guarded, h]

theorem guarded_of_some {test : State → Option ErrorKind} (x : ErrorWrites) (f : Arch → Arch) {s : State}
    {e : ErrorKind} (h : test s = some e) : guarded test x f s = raise x e s := by
  rw [guarded, h]

/-- The tests of `load`, in their order (40_context.md R92, 60_exceptions.md R192). -/
def lengthTest (s : State) : Option ErrorKind :=
  if s.arch.klen ≠ 16 then some .invalidKeyLength
  else if s.arch.slen ≠ 14 then some .invalidSaltLength
  else none

theorem lengthTest_of_klen {s : State} (hk : s.arch.klen ≠ 16) : lengthTest s = some .invalidKeyLength := if_pos hk

theorem lengthTest_of_slen {s : State} (hk : s.arch.klen = 16) (hs : s.arch.slen ≠ 14) :
    lengthTest s = some .invalidSaltLength := by
  rw [lengthTest, if_neg (not_not.mpr hk), if_pos hs]

theorem lengthTest_eq_none_iff (s : State) : lengthTest s = none ↔ s.arch.lengthsRight := by
  unfold lengthTest
  split_ifs with hk hs
  · exact iff_of_false nofun fun h => hk h.1
  · exact iff_of_false nofun fun h => hs h.2
  · exact iff_of_true rfl ⟨not_not.mp hk, not_not.mp hs⟩

theorem exec_load_eq_guarded (s : State) : exec .load s = guarded lengthTest .nothing Arch.install s := by
  rw [exec, execLoad, guarded, lengthTest]
  split_ifs <;> rfl

theorem exec_load_of_none {s : State} (h : lengthTest s = none) :
    exec .load s = .next { s with arch := s.arch.install.setErr okCode } := by
  rw [exec_load_eq_guarded, guarded_of_none _ _ h, complete_next]

theorem exec_load_of_some {s : State} {e : ErrorKind} (h : lengthTest s = some e) :
    exec .load s = .next { s with arch := s.arch.setErr e.code } := by
  rw [exec_load_eq_guarded, guarded_of_some _ _ h, raise_next, ErrorWrites.apply]

/-- A successful `load`'s core as one record: the prefixes of the staging registers, and everything made under the
earlier Context gone (40_context.md R92). -/
theorem Arch.install_setErr (a : Arch) (e : BitVec 8) : a.install.setErr e = { a with
    mk := a.candidateKey, ms := a.candidateSalt, mv := true
    sk := ⟨0, 0⟩, ss := ⟨0, 0⟩, sa := ⟨0, 0⟩
    skv := ⟨false, false⟩, ssv := ⟨false, false⟩, sav := ⟨false, false⟩
    ctr := 0, ctrv := false, tag := 0, tagv := false, matched := false, matchv := false
    err := e } := (rfl)

/-! ### Frames -/

/-- `load` writes no register of the host's and no byte of `MSG`. -/
theorem sameOperands_install (s : State) (e : BitVec 8) :
    SameOperands s { s with arch := s.arch.install.setErr e } := by
  rw [Arch.install_setErr]
  constructor <;> intros <;> rfl

/-- A write of `ERR` leaves every other component alone. -/
theorem setErr_frame (s : State) (e : BitVec 8) :
    let t : State := { s with arch := s.arch.setErr e }
    SameOperands s t ∧ SameMasters s t ∧ SameSlots s t ∧ SameCtr s t ∧ SameTag s t ∧ SameMatch s t := by
  refine ⟨?_, ⟨rfl, rfl, rfl⟩, fun b => ⟨⟨rfl, rfl⟩, ⟨rfl, rfl⟩, ⟨rfl, rfl⟩⟩, ⟨rfl, rfl⟩, ⟨rfl, rfl⟩, ⟨rfl, rfl⟩⟩
  constructor <;> intros <;> rfl

/-! ### `nop` and `clear` -/

theorem exec_nop (s : State) : exec .nop s = .next { s with arch := s.arch.setErr okCode } := complete_next id s

/-- The reset core holds `ERR = OK` already, so the last act of `clear` adds nothing (40_context.md R93). -/
theorem exec_clear (s : State) : exec .clear s = .next { s with arch := Arch.reset } :=
  complete_next (fun _ => Arch.reset) s

/-! ### The statements -/

/-- Settles O11: the masters are prefixes of the staging registers (`byteAt_leftmost`), and a prefix depends on its own
bytes alone (`leftmost_congr`); the tests look at the lengths only, so both runs end the same way. -/
theorem loadTakesTheLeadingStagingBytes : Obligations.LoadTakesTheLeadingStagingBytes := by
  constructor
  · intro s t hk hs h
    rw [exec_load_of_none ((lengthTest_eq_none_iff s).mpr ⟨hk, hs⟩), Arch.install_setErr] at h
    cases h
    exact ⟨fun i hi => byteAt_leftmost _ (by decide) (by omega), fun i hi => byteAt_leftmost _ (by decide) (by omega)⟩
  · intro s k n t hkey hsalt h
    have htest : lengthTest { s with arch := { s.arch with kin := k, sin := n } } = lengthTest s := rfl
    cases hs : lengthTest s with
    | some e =>
      rw [exec_load_of_some hs] at h
      rw [exec_load_of_some (htest.trans hs)]
      cases h
      rfl
    | none =>
      have hk : leftmost 128 k = s.arch.candidateKey := leftmost_congr (n := 16) rfl (by decide) hkey
      have hn : leftmost 112 n = s.arch.candidateSalt := leftmost_congr (n := 14) rfl (by decide) hsalt
      rw [exec_load_of_none hs, Arch.install_setErr] at h
      rw [exec_load_of_none (htest.trans hs), Arch.install_setErr, Arch.candidateKey, Arch.candidateSalt, hk, hn]
      cases h
      rfl

/-- Settles O31: `nop` and a failed `load` write `ERR` only, and a successful `load` none of the host's registers. -/
theorem contextFrame : Obligations.ContextFrame := by
  intro s t
  refine ⟨fun h => ?_, fun h => ?_, fun h => ?_⟩
  · rw [exec_nop] at h
    cases h
    exact setErr_frame s okCode
  · cases hs : lengthTest s with
    | some e =>
      rw [exec_load_of_some hs] at h
      cases h
      obtain ⟨hoperands, hrest⟩ := setErr_frame s e.code
      exact ⟨hoperands, fun _ => hrest⟩
    | none =>
      rw [exec_load_of_none hs] at h
      cases h
      exact ⟨sameOperands_install s okCode, fun hwrong => absurd ((lengthTest_eq_none_iff s).mp hs) hwrong⟩
  · rw [exec_clear] at h
    cases h
    exact ⟨rfl, rfl, rfl, rfl⟩

/-- Settles O5: the step's case of a command write (`step_of_command`), and the acknowledgement of a next state. -/
theorem stepRunsTheDecodedCommand : Obligations.StepRunsTheDecodedCommand := by
  intro s w rest i hp hd
  have hstep : step s = acknowledge (exec i { s with pending := rest }) :=
    step_of_command hp (commandWord_commandEvent w) hd
  refine ⟨hstep, fun t ht => ?_⟩
  rw [hstep, ht, acknowledge_next, State.answered]

/-- Settles O9: the word by evaluation, the rest is `exec_nop`. -/
theorem nopSetsErrOk : Obligations.NopSetsErrOk := ⟨by decide, exec_nop⟩

/-- Settles O10: one case per answer of `lengthTest`, with the core after a success written out by
`Arch.install_setErr`. -/
theorem loadInstallsTheContextOrNamesTheLength : Obligations.LoadInstallsTheContextOrNamesTheLength := by
  refine ⟨by decide, fun s hk hs => ?_, fun s hk => ?_, fun s hk hs => ?_⟩
  · rw [exec_load_of_none ((lengthTest_eq_none_iff s).mpr ⟨hk, hs⟩), Arch.install_setErr]
    rfl
  · exact exec_load_of_some (lengthTest_of_klen hk)
  · exact exec_load_of_some (lengthTest_of_slen hk hs)

/-- Settles O12: `exec_clear` for every state; the reset state's core is the reset core. -/
theorem clearEqualsReset : Obligations.ClearEqualsReset :=
  ⟨by decide, exec_clear, fun c => exec_clear (.resetWith c)⟩

end Sys2Proof.Machine
end

section
/-! Settling the authenticator's statements (43_authenticator.md): the comparison of tags, the three ways `tag` and
`verify` end, and that a computed tag, claimed, is accepted. -/

namespace Sys2Proof.Machine

/-! ### The comparison of tags -/

/-- An `|||` over a list is zero exactly when its start and every term are: no difference is lost on the way (R132). -/
theorem foldl_or_eq_zero_iff {w : Nat} {α : Type} (f : α → BitVec w) (l : List α) (d : BitVec w) :
    l.foldl (fun d i => d ||| f i) d = 0#w ↔ d = 0#w ∧ ∀ i ∈ l, f i = 0#w := by
  induction l generalizing d with
  | nil => simp
  | cons i l ih => rw [List.foldl_cons, ih, BitVec.or_eq_zero_iff, List.forall_mem_cons, and_assoc]

theorem tagsEqual_iff_byteAt (x y : Bytes10) : tagsEqual x y = true ↔ ∀ i < 10, byteAt x i = byteAt y i := by
  rw [tagsEqual, beq_iff_eq, BitVec.ofNat_eq_ofNat, foldl_or_eq_zero_iff]
  simp only [List.mem_range, BitVec.xor_eq_zero_iff, true_and]

theorem tagsEqual_iff_eq (x y : Bytes10) : tagsEqual x y = true ↔ x = y := by
  rw [tagsEqual_iff_byteAt]
  refine ⟨eq_of_byteAt_eq rfl, ?_⟩
  rintro rfl i -
  rfl

theorem tagsEqual_eq_decide (x y : Bytes10) : tagsEqual x y = decide (x = y) :=
  Bool.eq_iff_iff.mpr ((tagsEqual_iff_eq x y).trans decide_eq_true_iff.symm)

/-! ### The ways `tag` and `verify` end -/

theorem authTest_of_notLoaded {b : Stream} {s : State} (hsav : s.arch.sav.get b = false) :
    authTest b s = some .notLoaded := by
  rw [authTest, hsav]
  rfl

theorem authTest_of_loaded {b : Stream} {s : State} (hsav : s.arch.sav.get b = true) :
    authTest b s =
      if s.cfg.msgMax < s.arch.msglen.toNat then some .authenticationComputationFailure else none := by
  simp [authTest, State.messageTooLong, hsav]

theorem authTest_of_tooLong {b : Stream} {s : State} (hsav : s.arch.sav.get b = true)
    (hlen : s.cfg.msgMax < s.arch.msglen.toNat) : authTest b s = some .authenticationComputationFailure := by
  rw [authTest_of_loaded hsav, if_pos hlen]

theorem authTest_of_fits {b : Stream} {s : State} (hsav : s.arch.sav.get b = true)
    (hlen : s.arch.msglen.toNat ≤ s.cfg.msgMax) : authTest b s = none := by
  rw [authTest_of_loaded hsav, if_neg (not_lt.mpr hlen)]

theorem exec_tag_of_none {b : Stream} {s : State} (h : authTest b s = none) :
    exec (.tag b) s = .next { s with arch := { s.arch with
      tag := s.arch.expectedTag b, tagv := true, err := okCode } } := by
  rw [exec, execTag_eq_guarded, guarded_of_none _ _ h, complete_next, Arch.setTag_setErr]

theorem exec_tag_of_some {b : Stream} {s : State} {e : ErrorKind} (h : authTest b s = some e) :
    exec (.tag b) s = .next { s with arch := { s.arch with tag := 0, tagv := false, err := e.code } } := by
  rw [exec, execTag_eq_guarded, guarded_of_some _ _ h, raise_next, ErrorWrites.apply, Arch.setTag_setErr]

theorem exec_verify_of_none {b : Stream} {s : State} (h : authTest b s = none) :
    exec (.verify b) s = .next { s with arch := { s.arch with
      matched := decide (s.arch.expectedTag b = s.arch.claim), matchv := true, err := okCode } } := by
  rw [exec, execVerify_eq_guarded, guarded_of_none _ _ h, complete_next, Arch.setMatch_setErr, tagsEqual_eq_decide]

theorem exec_verify_of_some {b : Stream} {s : State} {e : ErrorKind} (h : authTest b s = some e) :
    exec (.verify b) s =
      .next { s with arch := { s.arch with matched := false, matchv := false, err := e.code } } := by
  rw [exec, execVerify_eq_guarded, guarded_of_some _ _ h, raise_next, ErrorWrites.apply, Arch.setMatch_setErr]

/-- The tag depends on the key, `MSGLEN` and the bytes of the message alone (43_authenticator.md R131). -/
theorem Arch.expectedTag_congr {a c : Arch} {b : Stream} (hkey : a.sa.get b = c.sa.get b)
    (hlen : a.msglen = c.msglen) (hmsg : ∀ off < a.msglen.toNat, a.msg.read off = c.msg.read off) :
    a.expectedTag b = c.expectedTag b := by
  have hbytes : a.message = c.message := by
    rw [Arch.message, Arch.message, ← hlen]
    exact Memory.readBytes_congr fun k hk => by rw [Nat.zero_add, hmsg k hk]
  rw [Arch.expectedTag, Arch.expectedTag, hkey, hbytes]

/-! ### The statements -/

/-- Settles O26: the gathered differences are zero exactly when every byte agrees (`foldl_or_eq_zero_iff`), and ten
bytes determine a tag (`eq_of_byteAt_eq`). -/
theorem tagsEqualIsEquality : Obligations.TagsEqualIsEquality :=
  fun x y => ⟨tagsEqual_iff_byteAt x y, tagsEqual_iff_eq x y⟩

/-- Settles O27: `tag` leaves what the tag depends on alone, so `verify` computes the same tag again
(`Arch.expectedTag_congr`) and finds it equal to the claim. -/
theorem computedTagIsAccepted : Obligations.ComputedTagIsAccepted := by
  intro b s t u hsav hlen htag hcfg hmsglen hmsg hkey husav hclaim
  rw [exec_tag_of_none (authTest_of_fits hsav hlen)] at htag
  cases htag
  have hulen : u.arch.msglen.toNat ≤ u.cfg.msgMax := by rwa [hmsglen, hcfg]
  have hsame : u.arch.expectedTag b = u.arch.claim := by
    rw [hclaim]
    exact Arch.expectedTag_congr hkey hmsglen fun off _ => hmsg off
  exact ⟨_, exec_verify_of_none (authTest_of_fits husav hulen), rfl, rfl, decide_eq_true hsame⟩

/-- Settles O24: the word for each stream by evaluation, the rest one case per answer of `authTest`. -/
theorem tagComputesTheTruncatedHmac : Obligations.TagComputesTheTruncatedHmac := by
  refine fun b => ⟨by cases b <;> decide, fun s hsav hlen => ?_, fun s hsav => ?_, fun s hsav hlen => ?_⟩
  · exact exec_tag_of_none (authTest_of_fits hsav hlen)
  · exact exec_tag_of_some (authTest_of_notLoaded hsav)
  · exact exec_tag_of_some (authTest_of_tooLong hsav hlen)

/-- Settles O25: the word for each stream by evaluation, the rest one case per answer of `authTest`; the comparison is
equality by `tagsEqual_eq_decide`. -/
theorem verifyComparesWithTheClaim : Obligations.VerifyComparesWithTheClaim := by
  refine fun b => ⟨by cases b <;> decide, fun s hsav hlen => ?_, fun s hsav => ?_, fun s hsav hlen => ?_⟩
  · exact exec_verify_of_none (authTest_of_fits hsav hlen)
  · exact exec_verify_of_some (authTest_of_notLoaded hsav)
  · exact exec_verify_of_some (authTest_of_tooLong hsav hlen)

end Sys2Proof.Machine
end

section
/-! Settling the statements of SHA-1 and HMAC (45_sha1_hmac.md): the padding, the message schedule, the rounds of a
compression, the chaining through whole blocks, and the construction of the tag. -/

namespace Sys2Proof.Machine

/-! ### The bytes of a byte string in order -/

@[simp] theorem length_bytesOf {w : Nat} (b : BitVec w) : (bytesOf b).length = w / 8 := by
  rw [bytesOf, List.length_map, List.length_range]

theorem getElem?_bytesOf {w i : Nat} (b : BitVec w) (hi : i < w / 8) : (bytesOf b)[i]? = some (byteAt b i) := by
  rw [bytesOf, List.getElem?_map, List.getElem?_range hi, Option.map_some]

namespace Sha1

/-! ### Padding (R171) -/

theorem length_add_padZeros_mod (len : Nat) : (len + 1 + padZeros len + 8) % 64 = 0 := by
  unfold padZeros
  omega

theorem padZeros_le (len : Nat) : padZeros len ≤ 63 := Nat.le_of_lt_succ (Nat.mod_lt _ (by decide))

/-- Two counts below 64 that fill the last block are the same count, so no smaller one than `padZeros` does. -/
theorem length_add_mod_ne_of_lt_padZeros {len y : Nat} (hy : y < padZeros len) : (len + 1 + y + 8) % 64 ≠ 0 := by
  have hfull := length_add_padZeros_mod len
  have hle := padZeros_le len
  omega

theorem length_pad (m : List Byte) : (pad m).length = m.length + 1 + padZeros m.length + 8 := by
  simp only [pad, List.length_append, List.length_cons, List.length_nil, List.length_replicate, length_bytesOf]

/-- A message's padding leaves its bytes in front. -/
theorem pad_append (m r : List Byte) :
    pad (m ++ r) = m ++ (r ++ [0x80] ++ List.replicate (padZeros (m ++ r).length) 0 ++
      bytesOf (BitVec.ofNat 64 (8 * (m ++ r).length))) := by
  simp only [pad, List.append_assoc]

/-! ### Message schedule (R173) -/

theorem words_of_four_le {bs : List Byte} (h : 4 ≤ bs.length) :
    words bs = wordOf (bs.getD 0 0) (bs.getD 1 0) (bs.getD 2 0) (bs.getD 3 0) :: words (bs.drop 4) := by
  match bs, h with
  | _ :: _ :: _ :: _ :: _, _ => rfl

/-- The words of `4 * n` bytes, each from its own four. -/
theorem words_eq_map {n : Nat} {bs : List Byte} (h : bs.length = 4 * n) :
    words bs = (List.range n).map fun t =>
      wordOf (bs.getD (4 * t) 0) (bs.getD (4 * t + 1) 0) (bs.getD (4 * t + 2) 0) (bs.getD (4 * t + 3) 0) := by
  induction n generalizing bs with
  | zero => rw [List.eq_nil_of_length_eq_zero h]; rfl
  | succ n ih =>
    have hdrop : (bs.drop 4).length = 4 * n := by rw [List.length_drop]; omega
    rw [words_of_four_le (by omega), ih hdrop, List.range_succ_eq_map, List.map_cons, List.map_map]
    congr 1
    refine List.map_congr_left fun t _ => ?_
    simp only [Function.comp, List.getD_eq_getElem?_getD, List.getElem?_drop]
    congr 3 <;> omega

@[simp] theorem length_extendSchedule (n : Nat) (ws : List Word) : (extendSchedule n ws).length = n + ws.length := by
  induction n generalizing ws with
  | zero => rw [extendSchedule, Nat.zero_add]
  | succ n ih => rw [extendSchedule, ih, List.length_cons]; omega

theorem extendSchedule_add (m n : Nat) (ws : List Word) :
    extendSchedule (m + n) ws = extendSchedule n (extendSchedule m ws) := by
  induction m generalizing ws with
  | zero => rw [Nat.zero_add, extendSchedule]
  | succ m ih => rw [Nat.succ_add, extendSchedule, ih, extendSchedule]

/-- Extending puts new words in front: the words before stay the oldest ones. -/
theorem suffix_extendSchedule (n : Nat) (ws : List Word) : ws <:+ extendSchedule n ws := by
  induction n generalizing ws with
  | zero => exact List.suffix_rfl
  | succ n ih => exact (List.suffix_cons _ ws).trans (ih _)

/-- The newest word that `n + 1` extensions leave is made of the words that `n` leave. -/
theorem extendSchedule_succ (n : Nat) (ws : List Word) :
    extendSchedule (n + 1) ws = nextScheduleWord (extendSchedule n ws) :: extendSchedule n ws :=
  extendSchedule_add n 1 ws


/-- The words that `k` extensions leave keep their places, oldest first, in a longer schedule. -/
theorem getElem?_reverse_extendSchedule {k n t : Nat} {ws : List Word} (hk : k ≤ n) (ht : t < k + ws.length) :
    (extendSchedule n ws).reverse[t]? = (extendSchedule k ws).reverse[t]? := by
  obtain ⟨newer, hnewer⟩ : extendSchedule k ws <:+ extendSchedule n ws := by
    rw [← Nat.add_sub_cancel' hk, extendSchedule_add]
    exact suffix_extendSchedule _ _
  rw [← hnewer, List.reverse_append, List.getElem?_append_left (by simpa using ht)]

theorem length_words {n : Nat} {bs : List Byte} (h : bs.length = 4 * n) : (words bs).length = n := by
  rw [words_eq_map h, List.length_map, List.length_range]

theorem length_schedule {block : List Byte} (h : block.length = 64) : (schedule block).length = 80 := by
  rw [schedule, List.length_reverse, length_extendSchedule, List.length_reverse, length_words (n := 16) h]

theorem getElem?_schedule_of_lt {block : List Byte} (h : block.length = 64) {t : Nat} (ht : t < 16) :
    (schedule block)[t]? = (words block)[t]? := by
  have hlen : t < 0 + (words block).reverse.length := by
    rwa [List.length_reverse, length_words (n := 16) h, Nat.zero_add]
  rw [schedule, getElem?_reverse_extendSchedule (Nat.zero_le 64) hlen, extendSchedule, List.reverse_reverse]

/-- Before word `k + 16` is made, the newest first of the words so far stand just before its place. -/
theorem getElem?_schedule_before {block : List Byte} (h : block.length = 64) {k j : Nat} (hk : k ≤ 64) (hj : j < 16) :
    (schedule block)[k + 15 - j]? = some ((extendSchedule k (words block).reverse).getD j 0) := by
  have hwords : (words block).reverse.length = 16 := by rw [List.length_reverse, length_words (n := 16) h]
  have hlen : (extendSchedule k (words block).reverse).length = k + 16 := by rw [length_extendSchedule, hwords]
  rw [schedule, getElem?_reverse_extendSchedule hk (by omega), List.getElem?_reverse (by omega), hlen,
    show k + 16 - 1 - (k + 15 - j) = j by omega, List.getD_eq_getElem _ _ (by omega), List.getElem?_eq_getElem]

theorem getElem?_schedule_add {block : List Byte} (h : block.length = 64) {k : Nat} (hk : k < 64) :
    (schedule block)[k + 16]? = some (nextScheduleWord (extendSchedule k (words block).reverse)) := by
  have hnewest := getElem?_schedule_before h (k := k + 1) (j := 0) hk (by decide)
  rwa [extendSchedule_succ, List.getD_cons_zero, show k + 1 + 15 - 0 = k + 16 by omega] at hnewest

/-! ### The rows of the table of R172 -/

theorem roundFn_choose {t : Nat} (ht : t < 20) (b c d : Word) : roundFn t b c d = b &&& c ||| ~~~b &&& d := if_pos ht

theorem roundFn_majority {t : Nat} (h : 40 ≤ t) (h' : t < 60) (b c d : Word) :
    roundFn t b c d = b &&& c ||| b &&& d ||| c &&& d := by
  rw [roundFn, if_neg (by omega), if_neg (by omega), if_pos h']

theorem roundFn_parity {t : Nat} (h : 20 ≤ t ∧ t < 40 ∨ 60 ≤ t) (b c d : Word) :
    roundFn t b c d = b ^^^ c ^^^ d := by
  rw [roundFn, if_neg (by omega)]
  obtain ⟨-, ht⟩ | ht := h
  · rw [if_pos ht]
  · rw [if_neg (by omega), if_neg (by omega)]

theorem roundConst_first {t : Nat} (h : t < 20) : roundConst t = 0x5A827999 := if_pos h

theorem roundConst_second {t : Nat} (h : 20 ≤ t) (h' : t < 40) : roundConst t = 0x6ED9EBA1 := by
  rw [roundConst, if_neg (by omega), if_pos h']

theorem roundConst_third {t : Nat} (h : 40 ≤ t) (h' : t < 60) : roundConst t = 0x8F1BBCDC := by
  rw [roundConst, if_neg (by omega), if_neg (by omega), if_pos h']

theorem roundConst_fourth {t : Nat} (h : 60 ≤ t) : roundConst t = 0xCA62C1D6 := by
  rw [roundConst, if_neg (by omega), if_neg (by omega), if_neg (by omega)]

/-! ### Compression (R174) -/

/-- The five variables before round `t` of the compression of a block (R174). -/
def varsBefore (h : Chain) (block : List Byte) (t : Nat) : Chain := rounds 0 ((schedule block).take t) h

theorem varsBefore_zero (h : Chain) (block : List Byte) : varsBefore h block 0 = h := rfl

theorem varsBefore_succ {h : Chain} {block : List Byte} {t : Nat} {w : Word} (hw : (schedule block)[t]? = some w) :
    varsBefore h block (t + 1) = round t w (varsBefore h block t) := by
  obtain ⟨ht, hget⟩ := List.getElem?_eq_some_iff.mp hw
  have hlen : ((schedule block).take t).length = t := List.length_take_of_le ht.le
  rw [varsBefore, List.take_succ_eq_append_getElem ht, hget, rounds_append, hlen, Nat.zero_add, rounds, rounds,
    varsBefore]

theorem compress_eq {h : Chain} {block : List Byte} (hb : block.length = 64) :
    compress h block =
      { a := h.a + (varsBefore h block 80).a
        b := h.b + (varsBefore h block 80).b
        c := h.c + (varsBefore h block 80).c
        d := h.d + (varsBefore h block 80).d
        e := h.e + (varsBefore h block 80).e } := by
  rw [compress, varsBefore, List.take_of_length_le (length_schedule hb).le]

/-! ### Blocks (R171, R175) -/

@[simp] theorem length_blocks (n : Nat) (m : List Byte) : (blocks n m).length = n := by
  induction n generalizing m with
  | zero => rfl
  | succ n ih => rw [blocks, List.length_cons, ih]

theorem getElem?_blocks {n j : Nat} (m : List Byte) (hj : j < n) :
    (blocks n m)[j]? = some ((m.drop (64 * j)).take 64) := by
  induction n generalizing m j with
  | zero => exact absurd hj (Nat.not_lt_zero j)
  | succ n ih =>
    cases j with
    | zero => rfl
    | succ j =>
      rw [blocks, List.getElem?_cons_succ, ih _ (Nat.lt_of_succ_lt_succ hj), List.drop_drop, Nat.mul_succ, Nat.add_comm]

/-- Whole leading blocks are cut off as they are. -/
theorem blocks_add_append {n : Nat} (k : Nat) {m : List Byte} (r : List Byte) (hm : m.length = 64 * n) :
    blocks (n + k) (m ++ r) = blocks n m ++ blocks k r := by
  induction n generalizing m with
  | zero => rw [List.eq_nil_of_length_eq_zero hm, Nat.zero_add, List.nil_append, blocks, List.nil_append]
  | succ n ih =>
    have hfirst : 64 ≤ m.length := by omega
    have hdrop : (m.drop 64).length = 64 * n := by rw [List.length_drop]; omega
    rw [Nat.succ_add, blocks, blocks, List.take_append_of_le_length hfirst, List.drop_append_of_le_length hfirst,
      ih hdrop, List.cons_append]

/-- The hash of a message that begins with whole blocks goes on from their chaining value (R175). -/
theorem sha1_append {n : Nat} {m : List Byte} (r : List Byte) (hm : m.length = 64 * n) :
    sha1 (m ++ r) =
      ((blocks ((pad (m ++ r)).length / 64 - n) ((pad (m ++ r)).drop m.length)).foldl compress
        ((blocks n m).foldl compress initial)).digest := by
  have hn : n ≤ (pad (m ++ r)).length / 64 := by
    rw [length_pad, List.length_append]
    omega
  obtain ⟨k, hk⟩ := Nat.exists_eq_add_of_le hn
  rw [sha1, hk, Nat.add_sub_cancel_left, pad_append, List.drop_left, blocks_add_append k _ hm, List.foldl_append]

/-! ### HMAC (R176) -/

theorem keyBlock_of_le {key : List Byte} (h : key.length ≤ 64) :
    keyBlock key = key ++ List.replicate (64 - key.length) 0 := by
  simp only [keyBlock, if_pos h]

/-! ### The statements -/

/-- Settles O38: `padZeros` fills the last block, and below 64 no smaller count does
(`length_add_mod_ne_of_lt_padZeros`); 8 times the length is below 2^64, so the length field holds it. -/
theorem paddingFillsWholeBlocks : Obligations.PaddingFillsWholeBlocks := by
  intro m hm
  refine ⟨padZeros m.length, BitVec.ofNat 64 (8 * m.length), length_add_padZeros_mod _,
    fun y => length_add_mod_ne_of_lt_padZeros, padZeros_le _, ?_, rfl, ?_⟩
  · rw [BitVec.toNat_ofNat, Nat.mod_eq_of_lt (by omega)]
  · have hfull := length_add_padZeros_mod m.length
    rw [length_pad]
    omega

/-- Settles O39: the first words stay the block's own (`getElem?_schedule_of_lt`); a later word is made of the words
that stood newest when it was put in front of them (`getElem?_schedule_before`). -/
theorem messageScheduleRecurrence : Obligations.MessageScheduleRecurrence := by
  intro block hb
  refine ⟨length_schedule hb, fun t ht => ?_, fun t hlo hhi => ?_⟩
  · rw [getElem?_schedule_of_lt hb ht, words_eq_map (n := 16) hb, List.getElem?_map, List.getElem?_range ht,
      Option.map_some]
  · obtain ⟨k, rfl⟩ := Nat.exists_eq_add_of_le' hlo
    have hk : k < 64 := by omega
    exact ⟨_, _, _, _, getElem?_schedule_before hb (j := 2) hk.le (by decide),
      getElem?_schedule_before hb (j := 7) hk.le (by decide),
      getElem?_schedule_before hb (j := 13) hk.le (by decide),
      getElem?_schedule_before hb (j := 15) hk.le (by decide), getElem?_schedule_add hb hk⟩

/-- Settles O40: the variables of R174 are `varsBefore`, whose steps are rounds by the table of R172; `blocks` cuts
whole leading blocks off as they are, so the fold over them comes first (`sha1_append`). -/
theorem hashChainsThroughWholeBlocks : Obligations.HashChainsThroughWholeBlocks := by
  refine ⟨rfl, fun h block hb => ⟨varsBefore h block, varsBefore_zero h block, fun t ht => ?_, compress_eq hb⟩,
    fun h => rfl, fun n m _ => ⟨length_blocks n m, fun j => getElem?_blocks m⟩, fun m => rfl,
    fun n m r => sha1_append r⟩
  have hw := List.getElem?_eq_getElem ((length_schedule hb).symm ▸ ht)
  exact ⟨_, roundFn t _ _ _, roundConst t, hw,
    fun hhi => ⟨roundFn_choose hhi .., roundConst_first hhi⟩,
    fun hlo hhi => ⟨roundFn_parity (.inl ⟨hlo, hhi⟩) .., roundConst_second hlo hhi⟩,
    fun hlo hhi => ⟨roundFn_majority hlo hhi .., roundConst_third hlo hhi⟩,
    fun hlo => ⟨roundFn_parity (.inr hlo) .., roundConst_fourth hlo⟩, varsBefore_succ hw⟩

end Sha1

/-- Settles O41: a key of at most 64 bytes is only filled (`Sha1.keyBlock_of_le`), and the bytes of the tag are the
first ones of the digest (`byteAt_leftmost`). -/
theorem tagIsTheTruncatedHmacConstruction : Obligations.TagIsTheTruncatedHmacConstruction := by
  refine ⟨fun key m k0 hkey hk0 => ⟨?_, ?_⟩,
    fun k m => ⟨length_bytesOf k, fun i => getElem?_bytesOf k, fun i hi => ?_⟩⟩
  · rw [hk0, List.length_append, List.length_replicate, Nat.add_sub_cancel' hkey]
  · rw [Sha1.hmac, Sha1.keyBlock_of_le hkey, hk0]
  · rw [computeTag, byteAt_leftmost _ (by decide) (by omega)]

end Sys2Proof.Machine
end

section
/-! Settling the statements of errors (60_exceptions.md): which command raises which code, what an erring command writes
besides, that a mismatch is no error, and that an error code blocks nothing. -/

namespace Sys2Proof.Machine

/-! ### Every command as its test, its writes on an error and its writes on success -/

/-- The tests of a command, in their order (60_exceptions.md R190, R192). -/
def commandTest : Instr → State → Option ErrorKind
  | .nop | .clear => fun _ => none
  | .load => lengthTest
  | .kdfKey _ _ | .kdfSalt _ _ | .kdfAuth _ _ => loadedTest (·.mv)
  | .ctr b => loadedTest (·.ssv.get b)
  | .tag b | .verify b => authTest b

/-- The row of a command in the table of 60_exceptions.md R193. -/
def errorWrites : Instr → ErrorWrites
  | .nop | .load | .clear | .kdfKey _ _ | .kdfSalt _ _ | .kdfAuth _ _ => .nothing
  | .ctr _ => .ctr
  | .tag _ => .tag
  | .verify _ => .verdict

/-- What a command that ends `OK` writes besides `ERR`. -/
def successWrites : Instr → Arch → Arch
  | .nop, a => a
  | .load, a => a.install
  | .clear, _ => Arch.reset
  | .kdfKey b l, a => a.setSk b (sessionKey a.mk a.ms l) true
  | .kdfSalt b l, a => a.setSs b (sessionSalt a.mk a.ms l) true
  | .kdfAuth b l, a => a.setSa b (sessionAuthKey a.mk a.ms l) true
  | .ctr b, a => a.setCtr (buildCounter a.seq a.roc a.ssrc (a.ss.get b)) true
  | .tag b, a => a.setTag (a.expectedTag b) true
  | .verify b, a => a.setMatch (tagsEqual (a.expectedTag b) a.claim) true

theorem exec_eq_guarded (i : Instr) (s : State) :
    exec i s = guarded (commandTest i) (errorWrites i) (successWrites i) s := by
  cases i with
  | nop => rfl
  | load => exact exec_load_eq_guarded s
  | clear => rfl
  | kdfKey b l => exact execKdfKey_eq_guarded b l s
  | kdfSalt b l => exact execKdfSalt_eq_guarded b l s
  | kdfAuth b l => exact execKdfAuth_eq_guarded b l s
  | ctr b => exact execCtr_eq_guarded b s
  | tag b => exact execTag_eq_guarded b s
  | verify b => exact execVerify_eq_guarded b s

theorem exec_of_none {i : Instr} {s : State} (h : commandTest i s = none) :
    exec i s = .next { s with arch := (successWrites i s.arch).setErr okCode } := by
  rw [exec_eq_guarded, guarded_of_none _ _ h, complete_next]

theorem exec_of_some {i : Instr} {s : State} {e : ErrorKind} (h : commandTest i s = some e) :
    exec i s = .next { s with arch := ((errorWrites i).apply s.arch).setErr e.code } := by
  rw [exec_eq_guarded, guarded_of_some _ _ h, raise_next]

/-! ### The code a command ends with -/

theorem ErrorKind.code_injective : Function.Injective ErrorKind.code := by
  intro e e'
  cases e <;> cases e' <;> decide

theorem ErrorKind.code_toNat_lt (e : ErrorKind) : e.code.toNat < 7 := by cases e <;> decide

/-- `ERR` names the error that the command's test found, or `OK`. -/
theorem exec_err {i : Instr} {s t : State} (h : exec i s = .next t) :
    t.arch.err = (commandTest i s).elim okCode ErrorKind.code := by
  cases htest : commandTest i s with
  | none =>
    rw [exec_of_none htest] at h
    cases h
    exact Arch.setErr_err ..
  | some e =>
    rw [exec_of_some htest] at h
    cases h
    exact Arch.setErr_err ..

theorem exec_err_eq_code_iff {i : Instr} {s t : State} (e : ErrorKind) (h : exec i s = .next t) :
    t.arch.err = e.code ↔ commandTest i s = some e := by
  rw [exec_err h]
  cases commandTest i s with
  | none => exact iff_of_false e.code_ne_ok.symm nofun
  | some e' => exact ErrorKind.code_injective.eq_iff.trans Option.some_inj.symm

theorem exec_err_toNat_lt {i : Instr} {s t : State} (h : exec i s = .next t) : t.arch.err.toNat < 7 := by
  rw [exec_err h]
  cases commandTest i s with
  | none => decide
  | some e => exact e.code_toNat_lt

/-- A command that does not end `OK` has failed its test, and has written its row of R193 and the code of the error. -/
theorem exec_of_err_ne_ok {i : Instr} {s t : State} (h : exec i s = .next t) (herr : t.arch.err ≠ okCode) :
    ∃ e, commandTest i s = some e ∧ t = { s with arch := ((errorWrites i).apply s.arch).setErr e.code } := by
  cases htest : commandTest i s with
  | none => exact absurd (by rw [exec_err h, htest, Option.elim_none]) herr
  | some e =>
    rw [exec_of_some htest] at h
    cases h
    exact ⟨e, rfl, rfl⟩

/-! ### When a test names an error -/

theorem lengthTest_eq_invalidKeyLength_iff (s : State) :
    lengthTest s = some .invalidKeyLength ↔ s.arch.klen ≠ 16 := by
  unfold lengthTest
  split_ifs with hk hs
  · exact iff_of_true rfl hk
  · exact iff_of_false nofun hk
  · exact iff_of_false nofun hk

theorem lengthTest_eq_invalidSaltLength_iff (s : State) :
    lengthTest s = some .invalidSaltLength ↔ s.arch.klen = 16 ∧ s.arch.slen ≠ 14 := by
  unfold lengthTest
  split_ifs with hk hs
  · exact iff_of_false nofun fun h => hk h.1
  · exact iff_of_true rfl ⟨not_not.mp hk, hs⟩
  · exact iff_of_false nofun fun h => hs h.2

theorem loadedTest_eq_notLoaded_iff (g : Arch → Bool) (s : State) :
    loadedTest g s = some .notLoaded ↔ g s.arch = false := by
  rw [loadedTest]
  cases g s.arch <;> decide

theorem authTest_eq_notLoaded_iff (b : Stream) (s : State) :
    authTest b s = some .notLoaded ↔ s.arch.sav.get b = false := by
  cases hsav : s.arch.sav.get b with
  | false => exact iff_of_true (authTest_of_notLoaded hsav) rfl
  | true =>
    rw [authTest_of_loaded hsav]
    split <;> exact iff_of_false nofun nofun

theorem authTest_eq_authenticationComputationFailure_iff (b : Stream) (s : State) :
    authTest b s = some .authenticationComputationFailure ↔
      s.arch.sav.get b = true ∧ s.cfg.msgMax < s.arch.msglen.toNat := by
  cases hsav : s.arch.sav.get b with
  | false => rw [authTest_of_notLoaded hsav]; exact iff_of_false nofun nofun
  | true =>
    rw [authTest_of_loaded hsav]
    split
    · exact iff_of_true rfl ⟨rfl, ‹_›⟩
    · exact iff_of_false nofun fun h => absurd h.2 ‹_›

/-- The column "raised by" of 60_exceptions.md R190. A command raises neither a kind of R191 nor the illegal word's. -/
def RaisedBy : ErrorKind → Instr → Prop
  | .invalidKeyLength, i | .invalidSaltLength, i => i = .load
  | .authenticationComputationFailure, i => ∃ b, i = .tag b ∨ i = .verify b
  | .notLoaded, i => i ≠ .nop ∧ i ≠ .load ∧ i ≠ .clear
  | .cipherInitializationFailure, _ | .illegalCommand, _ => False

theorem eq_of_lengthTest_eq_some {s : State} {e : ErrorKind} (h : lengthTest s = some e) :
    e = .invalidKeyLength ∨ e = .invalidSaltLength := by
  unfold lengthTest at h
  split_ifs at h <;> cases h
  · exact .inl rfl
  · exact .inr rfl

theorem eq_of_loadedTest_eq_some {g : Arch → Bool} {s : State} {e : ErrorKind} (h : loadedTest g s = some e) :
    e = .notLoaded := by
  unfold loadedTest at h
  split at h <;> cases h
  rfl

theorem eq_of_authTest_eq_some {b : Stream} {s : State} {e : ErrorKind} (h : authTest b s = some e) :
    e = .notLoaded ∨ e = .authenticationComputationFailure := by
  unfold authTest at h
  split_ifs at h <;> cases h
  · exact .inl rfl
  · exact .inr rfl

theorem raisedBy_of_commandTest {i : Instr} {s : State} {e : ErrorKind} (h : commandTest i s = some e) :
    RaisedBy e i := by
  cases i with
  | nop | clear => cases h
  | load => obtain rfl | rfl := eq_of_lengthTest_eq_some h <;> exact rfl
  | kdfKey | kdfSalt | kdfAuth =>
    cases eq_of_loadedTest_eq_some (g := (·.mv)) h
    exact ⟨nofun, nofun, nofun⟩
  | ctr b =>
    cases eq_of_loadedTest_eq_some (g := (·.ssv.get b)) h
    exact ⟨nofun, nofun, nofun⟩
  | tag b =>
    obtain rfl | rfl := eq_of_authTest_eq_some h
    · exact ⟨nofun, nofun, nofun⟩
    · exact ⟨b, .inl rfl⟩
  | verify b =>
    obtain rfl | rfl := eq_of_authTest_eq_some h
    · exact ⟨nofun, nofun, nofun⟩
    · exact ⟨b, .inr rfl⟩

/-- A command that ends with the code of an error is one of those that R190 names for it. -/
theorem raisedBy_of_exec_err {i : Instr} {s t : State} {e : ErrorKind} (h : exec i s = .next t)
    (herr : t.arch.err = e.code) : RaisedBy e i :=
  raisedBy_of_commandTest ((exec_err_eq_code_iff e h).mp herr)

/-- A command write ends with `0x06` exactly when its word is illegal: no command raises that code itself. -/
theorem step_err_eq_illegalCommand_iff {s t : State} {w : Word} {rest : List HostEvent}
    (hp : s.pending = commandEvent w :: rest) (h : step s = .next t) :
    t.arch.err = ErrorKind.illegalCommand.code ↔ ∃ e, decodeWord w = .error e := by
  cases hd : decodeWord w with
  | error r =>
    rw [step_of_illegal hp (commandWord_commandEvent w) hd, execIllegal, raise_next] at h
    cases h
    exact iff_of_true (Arch.setErr_err ..) ⟨r, rfl⟩
  | ok i =>
    rw [step_of_command hp (commandWord_commandEvent w) hd] at h
    obtain ⟨u, hu, rfl⟩ := acknowledge_eq_next h
    exact iff_of_false (fun herr => raisedBy_of_exec_err (e := .illegalCommand) hu herr) nofun

/-! ### What a command makes of an earlier error code -/

/-- The tests look at lengths and valid flags only. -/
theorem commandTest_setErr (i : Instr) (s : State) (e : BitVec 8) :
    commandTest i { s with arch := s.arch.setErr e } = commandTest i s := by
  cases i <;> rfl

theorem ErrorWrites.apply_setErr (x : ErrorWrites) (a : Arch) (e c : BitVec 8) :
    (x.apply (a.setErr e)).setErr c = (x.apply a).setErr c := by
  cases x <;> rfl

/-- No result is made of `ERR`: the operands read as before, and the last act overwrites the earlier code. -/
theorem successWrites_setErr (i : Instr) (a : Arch) (e c : BitVec 8) :
    (successWrites i (a.setErr e)).setErr c = (successWrites i a).setErr c := by
  cases i with
  | nop | load | clear => rfl
  | kdfKey b l => simp [successWrites, Arch.setSk_setErr]
  | kdfSalt b l => simp [successWrites, Arch.setSs_setErr]
  | kdfAuth b l => simp [successWrites, Arch.setSa_setErr]
  | ctr b => simp [successWrites, Arch.setCtr_setErr]
  | tag b => simp [successWrites, Arch.setTag_setErr, Arch.expectedTag, Arch.message]
  | verify b => simp [successWrites, Arch.setMatch_setErr, Arch.expectedTag, Arch.message]

theorem exec_setErr (i : Instr) (s : State) (e : BitVec 8) :
    exec i { s with arch := s.arch.setErr e } = exec i s := by
  have htest := commandTest_setErr i s e
  cases hs : commandTest i s with
  | none => rw [exec_of_none hs, exec_of_none (htest.trans hs), successWrites_setErr]
  | some c => rw [exec_of_some hs, exec_of_some (htest.trans hs), ErrorWrites.apply_setErr]

theorem execIllegal_setErr (s : State) (e : BitVec 8) :
    execIllegal { s with arch := s.arch.setErr e } = execIllegal s := by
  rw [execIllegal, execIllegal, raise_next, raise_next, ErrorWrites.apply_setErr]

/-! ### What the port makes of `ERR` -/

/-- `ERR` is read-only to the host (20_memory.md R63). -/
theorem storeReg_err {r : RegName} {v : PortValue} {a a' : Arch} (h : storeReg r v a = some a') : a'.err = a.err := by
  cases r <;> cases h <;> rfl

/-- What the port serves is no command: it leaves `ERR` alone, taken or refused. -/
theorem serve_port_err (x : Transaction) (s : State) : (serve (.port x) s).arch.err = s.arch.err := by
  have hread (hx : (∃ id, x = .regRead id) ∨ ∃ off, x = .msgRead off) :
      (serve (.port x) s).arch.err = s.arch.err := by
    obtain ⟨y, hy⟩ := serve_read_answers hx s.arch s.cfg
    rw [hy s rfl rfl, State.answered_arch]
  cases x with
  | regWrite id v =>
    obtain ⟨r, a, -, hw, hserve⟩ | hserve := serveRegWrite_cases id v s
    · rw [serve, hserve]
      exact storeReg_err (writeReg_eq_some hw).2
    · rw [serve, hserve, State.answered_arch]
  | regRead id => exact hread (.inl ⟨id, rfl⟩)
  | msgWrite off b =>
    rw [serve, serveMsgWrite]
    split <;> rfl
  | msgRead off => exact hread (.inr ⟨off, rfl⟩)

/-! ### The statements -/

/-- Settles O28: `verify` compares with the tag that `tag` computes, and it writes `ERR` and `MATCHV` together: `OK`
with 1 when its tests pass, the code of an error with 0 when one fails. -/
theorem mismatchIsNotAnError : Obligations.MismatchIsNotAnError := by
  refine ⟨fun b s t u hsav hlen htag hclaim hverify => ?_, fun b s u hverify => ?_⟩
  · have hfits := authTest_of_fits hsav hlen
    rw [exec_tag_of_none hfits] at htag
    rw [exec_verify_of_none hfits] at hverify
    cases htag
    cases hverify
    exact ⟨rfl, rfl, decide_eq_false hclaim.symm⟩
  · cases htest : authTest b s with
    | none =>
      rw [exec_verify_of_none htest] at hverify
      cases hverify
      exact ⟨fun herr => absurd herr.symm (ErrorKind.code_ne_ok .authenticationComputationFailure), fun _ => rfl⟩
    | some e =>
      rw [exec_verify_of_some htest] at hverify
      cases hverify
      exact ⟨fun _ => rfl, nofun⟩

/-- Settles O42: a command ends with a code exactly when its test names that error (`exec_err_eq_code_iff`), so the
clauses are what the tests say; the last one is the step's. -/
theorem errorCodesExactlyWhen : Obligations.ErrorCodesExactlyWhen := by
  refine ⟨fun s t h => ⟨?_, ?_⟩, fun i b l s t hi h => ?_, fun b s t h => ?_, fun i b s t hi h => ?_,
    fun i s t h => ⟨?_, ?_, ?_, ?_, ?_, exec_err_toNat_lt h⟩, fun s w rest hp t h => ?_⟩
  · exact (exec_err_eq_code_iff .invalidKeyLength h).trans (lengthTest_eq_invalidKeyLength_iff s)
  · exact (exec_err_eq_code_iff .invalidSaltLength h).trans (lengthTest_eq_invalidSaltLength_iff s)
  · have htest : commandTest i s = loadedTest (·.mv) s := by
      simp only [List.mem_cons, List.not_mem_nil, or_false] at hi
      obtain rfl | rfl | rfl := hi <;> rfl
    exact (exec_err_eq_code_iff .notLoaded h).trans (htest ▸ loadedTest_eq_notLoaded_iff (·.mv) s)
  · exact (exec_err_eq_code_iff .notLoaded h).trans (loadedTest_eq_notLoaded_iff (·.ssv.get b) s)
  · have htest : commandTest i s = authTest b s := by
      simp only [List.mem_cons, List.not_mem_nil, or_false] at hi
      obtain rfl | rfl := hi <;> rfl
    exact ⟨(exec_err_eq_code_iff .notLoaded h).trans (htest ▸ authTest_eq_notLoaded_iff b s),
      (exec_err_eq_code_iff .authenticationComputationFailure h).trans
        (htest ▸ authTest_eq_authenticationComputationFailure_iff b s)⟩
  · rintro (herr | herr)
    · exact raisedBy_of_exec_err (e := .invalidKeyLength) h herr
    · exact raisedBy_of_exec_err (e := .invalidSaltLength) h herr
  · exact raisedBy_of_exec_err (e := .authenticationComputationFailure) h
  · exact raisedBy_of_exec_err (e := .notLoaded) h
  · exact raisedBy_of_exec_err (e := .cipherInitializationFailure) h
  · exact raisedBy_of_exec_err (e := .illegalCommand) h
  · exact step_err_eq_illegalCommand_iff hp h

/-- Settles O43: the state after an error is the row of R193 (`exec_of_err_ne_ok`), written out for each command; the
tests of `nop` and `clear` name no error. -/
theorem erringCommandsWriteOnlyTheTable : Obligations.ErringCommandsWriteOnlyTheTable := by
  refine ⟨raise_next .nothing .illegalCommand, fun i s t h herr => ?_⟩
  obtain ⟨e, htest, rfl⟩ := exec_of_err_ne_ok h herr
  refine ⟨⟨e, Arch.setErr_err ..⟩, ?_⟩
  cases i with
  | nop | clear => cases htest
  | _ => rfl

/-- Settles O44: neither the tests nor the writes of a command are made of `ERR` (`exec_setErr`), and the port never
writes it (`serve_port_err`). -/
theorem errIsOverwrittenAndNeverBlocks : Obligations.ErrIsOverwrittenAndNeverBlocks := by
  refine ⟨exec_setErr, execIllegal_setErr, fun s x rest t hp hc h => ?_⟩
  rw [step_of_not_command hp hc] at h
  cases h
  exact serve_port_err x (s.withPending rest)

end Sys2Proof.Machine
end

section
/-! Settling the statements of reset and hazards (70_reset_and_hazards.md): results are snapshots, a reset event is a
`clear`, and what the commands and the reads do in the reset state. -/

namespace Sys2Proof.Machine

/-! ### The results and who leaves them alone -/

/-- The result registers and their flags: `CTR`, `TAG`, `MATCH` (70_reset_and_hazards.md R215). -/
def Arch.results (a : Arch) : Bytes16 × Bool × Bytes10 × Bool × Bool × Bool :=
  (a.ctr, a.ctrv, a.tag, a.tagv, a.matched, a.matchv)

theorem results_eq_iff {s t : State} :
    t.arch.results = s.arch.results ↔ SameCtr s t ∧ SameTag s t ∧ SameMatch s t := by
  simp only [Arch.results, Prod.mk.injEq, SameCtr, SameTag, SameMatch, and_assoc]

@[simp] theorem Arch.setErr_results (e : BitVec 8) (a : Arch) : (a.setErr e).results = a.results := (rfl)

/-- The results are read-only to the host (20_memory.md R63). -/
theorem storeReg_results {r : RegName} {v : PortValue} {a a' : Arch} (h : storeReg r v a = some a') :
    a'.results = a.results := by
  cases r <;> cases h <;> rfl

/-- What a transaction that is no command can do to the core: nothing, a register write, or a write to `MSG`
(20_memory.md R51). -/
theorem serve_port_arch_cases (x : Transaction) (s : State) :
    (serve (.port x) s).arch = s.arch ∨
    (∃ r v, storeReg r v s.arch = some (serve (.port x) s).arch) ∨
    ∃ off b, (serve (.port x) s).arch = { s.arch with msg := s.arch.msg.write off b } := by
  have hread (hx : (∃ id, x = .regRead id) ∨ ∃ off, x = .msgRead off) : (serve (.port x) s).arch = s.arch := by
    obtain ⟨y, hy⟩ := serve_read_answers hx s.arch s.cfg
    rw [hy s rfl rfl, State.answered_arch]
  cases x with
  | regWrite id v =>
    rw [serve]
    obtain ⟨r, a, -, hw, hserve⟩ | hserve := serveRegWrite_cases id v s
    · exact .inr (.inl ⟨r, v, by rw [hserve]; exact (writeReg_eq_some hw).2⟩)
    · exact .inl (by rw [hserve, State.answered_arch])
  | regRead id => exact .inl (hread (.inl ⟨id, rfl⟩))
  | msgWrite off b =>
    rw [serve, serveMsgWrite]
    split
    · exact .inr (.inr ⟨off.toNat, b, rfl⟩)
    · exact .inl rfl
  | msgRead off => exact .inl (hread (.inr ⟨off, rfl⟩))

theorem serve_port_results (x : Transaction) (s : State) : (serve (.port x) s).arch.results = s.arch.results := by
  obtain hsame | ⟨r, v, hstore⟩ | ⟨off, b, hmsg⟩ := serve_port_arch_cases x s
  · rw [hsame]
  · exact storeReg_results hstore
  · rw [hmsg]
    rfl

/-- A derivation writes its own slot when it succeeds and `ERR` alone when it fails (41_kdf.md R102 to R104). -/
theorem exec_derivation_results {i : Instr} {b : Stream} {l : Byte} {s t : State}
    (hi : i ∈ [.kdfKey b l, .kdfSalt b l, .kdfAuth b l]) (h : exec i s = .next t) :
    t.arch.results = s.arch.results := by
  simp only [List.mem_cons, List.not_mem_nil, or_false] at hi
  cases htest : commandTest i s with
  | none =>
    rw [exec_of_none htest] at h
    cases h
    obtain rfl | rfl | rfl := hi <;> simp [successWrites, Arch.results]
  | some e =>
    rw [exec_of_some htest] at h
    cases h
    obtain rfl | rfl | rfl := hi <;> exact Arch.setErr_results ..

/-! ### The reset state -/

theorem serve_reset (s : State) : serve .reset s = { s with arch := Arch.reset } := rfl

/-- The commands that need a Context or a slot find none after reset (10_state.md R38). -/
theorem commandTest_resetWith {i : Instr} {b : Stream} {l : Byte} (c : Config)
    (hi : i ∈ [.kdfKey b l, .kdfSalt b l, .kdfAuth b l, .ctr b, .tag b, .verify b]) :
    commandTest i (.resetWith c) = some .notLoaded := by
  have hmv : loadedTest (·.mv) (.resetWith c) = some .notLoaded := rfl
  have hssv : loadedTest (·.ssv.get b) (.resetWith c) = some .notLoaded := by cases b <;> rfl
  have hsav : authTest b (.resetWith c) = some .notLoaded := by cases b <;> rfl
  simp only [List.mem_cons, List.not_mem_nil, or_false] at hi
  obtain rfl | rfl | rfl | rfl | rfl | rfl := hi
  exacts [hmv, hmv, hmv, hssv, hsav, hsav]

/-- A command whose test names an error ends with the code of that error. -/
theorem exec_exists_err {i : Instr} {s : State} {e : ErrorKind} (h : commandTest i s = some e) :
    ∃ t, exec i s = .next t ∧ t.arch.err = e.code :=
  ⟨_, exec_of_some h, Arch.setErr_err ..⟩

theorem readReg_reset_eq_none : ∀ r ∈ [RegName.mk, .ms, .sk0, .ss0, .sa0, .sk1, .ss1, .sa1, .ctr, .tag],
    readReg r Arch.reset = none := by
  have hflag : ∀ r ∈ [RegName.mk, .ms, .sk0, .ss0, .sa0, .sk1, .ss1, .sa1, .ctr, .tag],
      validFlag Arch.reset r = false := by decide
  exact fun r hr => (readReg_eq_none_iff r _).mpr (.inr (hflag r hr))

/-! ### The statements -/

/-- Settles O54: neither what the port stores (`serve_port_results`) nor what a derivation writes
(`exec_derivation_results`) is a result. -/
theorem resultsAreSnapshots : Obligations.ResultsAreSnapshots := by
  refine ⟨fun s x rest t hp hc h => ?_, fun i b l s t hi h => results_eq_iff.mp (exec_derivation_results hi h)⟩
  rw [step_of_not_command hp hc] at h
  cases h
  exact results_eq_iff.mp (serve_port_results x (s.withPending rest))

/-- Settles O59: the step's case of an event that is no command, and `exec_clear`. -/
theorem resetEventEqualsClear : Obligations.ResetEventEqualsClear := by
  intro s rest hp
  have hstep : step s = .next { s with pending := rest, arch := Arch.reset } := by
    rw [step_of_not_command hp commandWord_reset, serve_reset, State.withPending]
  exact ⟨hstep, (exec_clear { s with pending := rest }).trans hstep.symm⟩

/-- Settles O60: after reset every test finds its flag or `KLEN` zero, and a register whose flag is 0 is not readable. -/
theorem commandsAndReadsAfterReset : Obligations.CommandsAndReadsAfterReset := by
  intro c b l
  have hklen : Arch.reset.klen ≠ 16 := by decide
  exact ⟨fun i hi => exec_exists_err (commandTest_resetWith c hi),
    exec_exists_err (i := .load) (lengthTest_of_klen hklen), readReg_reset_eq_none, rfl, rfl, by decide⟩

end Sys2Proof.Machine
end
